-- ==== Sys2Proof/Word.lean ====
section
/-! DEFINITION. The word types of the block (00_scope.md R15): bytes, event-code digits, addresses, 32-bit registers. -/

namespace Sys2Proof

/-- A byte: an unsigned value 0 to 255, bit 0 its least significant bit (R15). -/
abbrev Byte := BitVec 8

/-- One 4-bit digit of the serial event code (R130). -/
abbrev Digit := BitVec 4

/-- A bus address. Sixteen bits hold both address widths; for `ADDR_LEN = 1` the high byte is 0
(10_state.md R33; DESIGN CHOICE, log 19). -/
abbrev Addr := BitVec 16

/-- A 32-bit quantity: the UUID, the packet counters, the uptime (R34 to R36). -/
abbrev Word32 := BitVec 32

end Sys2Proof
end

