-- ==== Sys2Proof/Config.lean ====
section
/-! DEFINITION. The configuration record of 00_scope.md R6 to R10, its constraints (70_reset_and_hazards.md R352),
the reference configuration CFG0 (95_test_vectors.md Part 1), and the values the spec leaves open. -/

namespace Sys2Proof

/-- The build-selected checksum algorithm, `CSUM_KIND` (R6, R140). -/
inductive CsumKind where
  | xor
  | crc8
deriving DecidableEq, Repr

/-- The result of a handler (R17): the no-answer sentinel, or a reply payload, which may be empty. -/
inductive Result where
  | noAnswer
  | reply (payload : List Byte)
deriving DecidableEq, Repr, Inhabited

/-- The configuration of one device: fixed before reset, never changed (00_scope.md section 4). -/
structure Config where
  /-- `ADDR_LEN`, in bytes (R6). -/
  addrLen : Nat
  /-- `CSUM_KIND` (R6). -/
  csumKind : CsumKind
  /-- `CSUM_LEN`, in bytes (R6); only 1 is valid. -/
  csumLen : Nat
  /-- `BUF_SIZE`, the capacity of each buffer (R6). -/
  bufSize : Nat
  /-- `UUID` (R7). -/
  uuid : Word32
  /-- `PROTOCOL_ID` (R7). -/
  protocolId : Byte
  /-- `DEVICE_TYPE_ID` (R7). -/
  deviceTypeId : Byte
  /-- `CHECKSUM_TAG` (R7). -/
  checksumTag : Byte
  /-- `UPTIME_FREQ` (R7). -/
  uptimeFreq : BitVec 16
  /-- `NAME` (R7). -/
  name : List Byte
  /-- `VERSION` (R7). -/
  version : List Byte
  /-- `INITIAL_ADDRESS` (R7). -/
  initialAddress : Addr
  /-- `BROADCAST_ADDR` (R8). -/
  broadcastAddr : Addr
  /-- `MASTER_ADDR` (R8). -/
  masterAddr : Addr
  /-- `ALL_DEVICES` (R9). -/
  allDevices : Byte
  /-- `SUB_UUID` (R9). -/
  subUuid : Byte
  /-- `SUB_ENABLE_NEIGHBOURS` (R9). -/
  subEnableNeighbours : Byte
  /-- `SUB_DISABLE_NEIGHBOURS` (R9). -/
  subDisableNeighbours : Byte
  /-- `SUB_RESET_ALL_ADDRESSES` (R9). -/
  subResetAllAddresses : Byte
  /-- `SUB_BUS_ASSERT` (R9). -/
  subBusAssert : Byte
  /-- `KEY_GET_ADDRESS` (R9). -/
  keyGetAddress : Byte
  /-- `KEY_RESET_ADDRESS` (R9). -/
  keyResetAddress : Byte
  /-- `KEY_SET_ADDRESS` (R9). -/
  keySetAddress : Byte
  /-- `CMD_NAME` (R9). -/
  cmdName : Byte
  /-- `CMD_UPTIME` (R9). -/
  cmdUptime : Byte
  /-- `CMD_VERSION` (R9). -/
  cmdVersion : Byte
  /-- `CMD_COUNT_CORRECT` (R9). -/
  cmdCountCorrect : Byte
  /-- `CMD_COUNT_OVERFLOW` (R9). -/
  cmdCountOverflow : Byte
  /-- `CMD_COUNT_LOST` (R9). -/
  cmdCountLost : Byte
  /-- `CMD_COUNT_MISMATCH` (R9). -/
  cmdCountMismatch : Byte
  /-- `CMD_COUNT_ALL` (R9). -/
  cmdCountAll : Byte
  /-- `CMD_COUNT_RESET` (R9). -/
  cmdCountReset : Byte
  /-- `CMD_UUID` (R9). -/
  cmdUuid : Byte
  /-- `CMD_EXTENDED_INFO` (R9). -/
  cmdExtendedInfo : Byte
  /-- `CRC8_POLY`, without the x^8 term (R10). -/
  crc8Poly : Byte
  /-- `CRC8_INIT` (R10). -/
  crc8Init : Byte
  /-- `SEGMENT_ENABLE_RESET` (R10). -/
  segmentEnableReset : Bool
  /-- `HEARTBEAT_DIV` (R10); `defaultHeartbeatDiv uptimeFreq` where the build sets none. -/
  heartbeatDiv : Nat
  /-- Whether an application request handler is registered: `APP_REQUEST != none` (R10, conflict C8).
  Its answers are inputs (`State.appAnswers`, log 11). -/
  appRequestRegistered : Bool
deriving DecidableEq, Repr

/-- `MAX_PAYLOAD = BUF_SIZE - ADDR_LEN - CSUM_LEN` (R10). -/
def Config.maxPayload (c : Config) : Nat := c.bufSize - c.addrLen - c.csumLen

/-- `EXT_LEN = 4 + len(NAME) + len(VERSION)` (R201, R212). -/
def Config.extLen (c : Config) : Nat := 4 + c.name.length + c.version.length

/-- The eleven base request codes, one group of R9. -/
def Config.baseCodes (c : Config) : List Byte :=
  [c.cmdName, c.cmdUptime, c.cmdVersion, c.cmdCountCorrect, c.cmdCountOverflow, c.cmdCountLost,
   c.cmdCountMismatch, c.cmdCountAll, c.cmdCountReset, c.cmdUuid, c.cmdExtendedInfo]

/-- The five broadcast sub-command codes, one group of R9. -/
def Config.subCodes (c : Config) : List Byte :=
  [c.subUuid, c.subEnableNeighbours, c.subDisableNeighbours, c.subResetAllAddresses, c.subBusAssert]

/-- The frame parameters are legal (R6, R10): widths, the refused two-byte checksum, the buffer bounds
and the static fit of every fixed reply (R216). -/
abbrev Config.FrameValid (c : Config) : Prop :=
  (c.addrLen = 1 ∨ c.addrLen = 2) ∧ c.csumLen = 1 ∧ c.addrLen + 16 + c.csumLen ≤ c.bufSize ∧
    c.bufSize < 65536 ∧ c.name.length ≤ 255 ∧ c.version.length ≤ 255 ∧ c.extLen ≤ c.maxPayload

/-- The address sentinels are legal (R8): `MASTER_ADDR` is the top bit of the address field and the
broadcast value and the initial address lie below it (R7). -/
abbrev Config.AddressValid (c : Config) : Prop :=
  c.masterAddr.toNat = 2 ^ (8 * c.addrLen - 1) ∧ c.broadcastAddr < c.masterAddr ∧
    c.initialAddress < c.masterAddr

/-- The identity constants and protocol codes are legal (R7, R9, R10): codes of one group pairwise
distinct, the two length-7 keys distinct, `PROTOCOL_ID` apart from `ALL_DEVICES`, `UUID` not 0. -/
abbrev Config.CodesValid (c : Config) : Prop :=
  c.uuid ≠ 0 ∧ c.protocolId ≠ c.allDevices ∧ c.subCodes.Nodup ∧ c.keyGetAddress ≠ c.keyResetAddress ∧
    c.baseCodes.Nodup ∧ 1 ≤ c.heartbeatDiv

/-- The constraints checked when a configuration is built (R10); one that fails is refused (R352). -/
abbrev Config.Valid (c : Config) : Prop := c.FrameValid ∧ c.AddressValid ∧ c.CodesValid

/-- The default `HEARTBEAT_DIV`, `max(1, UPTIME_FREQ / 2)` with integer division (R10, R290, R294). -/
def Config.defaultHeartbeatDiv (uptimeFreq : BitVec 16) : Nat := max 1 (uptimeFreq.toNat / 2)

/-- A configuration built without a `HEARTBEAT_DIV` of its own: the default takes its place (R10, R294). -/
def Config.withDefaultHeartbeatDiv (c : Config) : Config :=
  { c with heartbeatDiv := Config.defaultHeartbeatDiv c.uptimeFreq }

/-- The bus-wide parameters: `ADDR_LEN`, `CSUM_KIND`, `MASTER_ADDR`, `BROADCAST_ADDR` and the protocol codes of R9, which
must be equal on all devices of one line (R322). -/
structure BusParameters where
  addrLen : Nat
  csumKind : CsumKind
  masterAddr : Addr
  broadcastAddr : Addr
  allDevices : Byte
  subCodes : List Byte
  keyCodes : List Byte
  baseCodes : List Byte
deriving DecidableEq, Repr

/-- A configuration's bus-wide parameters (R322). -/
def Config.busParameters (c : Config) : BusParameters where
  addrLen := c.addrLen
  csumKind := c.csumKind
  masterAddr := c.masterAddr
  broadcastAddr := c.broadcastAddr
  allDevices := c.allDevices
  subCodes := c.subCodes
  keyCodes := [c.keyGetAddress, c.keyResetAddress, c.keySetAddress]
  baseCodes := c.baseCodes

/-- The reference configuration CFG0 (95_test_vectors.md Part 1); the model's reset state uses it
(DESIGN CHOICE, log 1). -/
def Config.cfg0 : Config where
  addrLen := 1
  csumKind := .crc8
  csumLen := 1
  bufSize := 32
  uuid := 0x12345678
  protocolId := 0x03
  deviceTypeId := 0x01
  checksumTag := 0x01
  uptimeFreq := 100
  name := [0x64, 0x65, 0x76]
  version := [0x76, 0x31]
  initialAddress := 0
  broadcastAddr := 0x00
  masterAddr := 0x80
  allDevices := 0x00
  subUuid := 0x00
  subEnableNeighbours := 0x01
  subDisableNeighbours := 0x02
  subResetAllAddresses := 0x03
  subBusAssert := 0x04
  keyGetAddress := 0x00
  keyResetAddress := 0x01
  keySetAddress := 0x00
  cmdName := 0x00
  cmdUptime := 0x01
  cmdVersion := 0x02
  cmdCountCorrect := 0x03
  cmdCountOverflow := 0x04
  cmdCountLost := 0x05
  cmdCountMismatch := 0x06
  cmdCountAll := 0x07
  cmdCountReset := 0x08
  cmdUuid := 0x09
  cmdExtendedInfo := 0x0A
  crc8Poly := 0x1D
  crc8Init := 0xFD
  segmentEnableReset := true
  heartbeatDiv := Config.defaultHeartbeatDiv 100
  appRequestRegistered := false

/-- FREE VALUE (log 11): what the application request handler answers to its `n`-th otherwise unanswered
call, made with payload `p`. The handler is outside the block and may answer anything (R215, R321). -/
opaque Config.appAnswer (n : Nat) (p : List Byte) : Result

/-- FREE VALUE (log 17): `IDLE_TIMEOUT`, the idle threshold of the receive timer; no rule depends on it
(R10, R13). -/
opaque Config.idleTimeout : Nat

/-- FREE VALUE (log 17): `ASSERT_DURATION`, how long a bus assertion holds the line low; no rule depends
on it (R10, R255). -/
opaque Config.assertDuration : Nat

end Sys2Proof
end

