-- ==== Sys2Proof/Machine/Operands.lean ====
section
/-! DEFINITION. Operand assembly: the little-endian sequences of 00_scope.md R15 and 20_memory.md R75, the address
field, and the bus-assertion operands of 30_encoding.md R111. -/

namespace Sys2Proof

/-- `le(v, n)`: the `n`-byte little-endian sequence of `v` (R15). -/
def le (v : Nat) : Nat → List Byte
  | 0 => []
  | n + 1 => BitVec.ofNat 8 v :: le (v / 256) n

/-- `le_val(s)`: the value of a little-endian sequence (R15). -/
def leVal : List Byte → Nat
  | [] => 0
  | b :: rest => b.toNat + 256 * leVal rest

/-- The address value of an address field's bytes, `le_val` (R16, R101). -/
def addrOf (field : List Byte) : Addr := BitVec.ofNat 16 (leVal field)

/-- The address field of address `a`: `le(a, ADDR_LEN)` (R75, R101). -/
def addrField (c : Config) (a : Addr) : List Byte := le a.toNat c.addrLen

/-- The UUID on the wire: `le(UUID, 4)` (R34). -/
def uuidField (c : Config) : List Byte := le c.uuid.toNat 4

/-- The first bytes of every UUID-addressed broadcast: `[ALL_DEVICES, SUB_UUID] ++ le(UUID, 4)` (R110). -/
def uuidHead (c : Config) : List Byte := [c.allDevices, c.subUuid] ++ uuidField c

/-- The mask of a bus-assertion request: the `m` low bits set (R111 (d), R254); used for `1 <= m <= 32`. -/
def assertMask (m : Nat) : Word32 := BitVec.ofNat 32 (2 ^ m - 1)

/-- The candidate pattern: up to four bytes, least significant first, missing high bytes 0 (R111 (e), R254). -/
def assertPattern (bytes : List Byte) : Word32 := BitVec.ofNat 32 (leVal (bytes.take 4))

/-- The mask length is legal: 1 to 32 (R111 (c), R253). -/
def maskLengthOk (m : Byte) : Bool := 1 ≤ m.toNat && m.toNat ≤ 32

/-- The bus-assertion test `(UUID & mask) = pattern` (R252, R254); the pattern is not masked. -/
def assertMatches (uuid : Word32) (m : Byte) (bytes : List Byte) : Bool :=
  (uuid &&& assertMask m.toNat) = assertPattern bytes

end Sys2Proof
end

