-- ==== Sys2Proof/Syntax.lean ====
section
/-! DEFINITION. The instructions: the ten operations of 00_scope.md R12 and the 29 frame commands of
30_encoding.md R108 to R110, one constructor per row of spec/opcode_table.json, in its order. -/

namespace Sys2Proof

/-- One instruction. The first ten are operations (R12); the rest are frame commands, each standing for
the `PE_DISPATCH` step that dispatches it (log 8), with the operands its payload carries (R111). -/
inductive Instr where
  /-- `RESET` (R350). -/
  | reset
  /-- `RX_BYTE(b)` (R150). -/
  | rxByte (b : Byte)
  /-- `RX_TIMEOUT` (R155). -/
  | rxTimeout
  /-- `PE_POLL` (R171). -/
  | pePoll
  /-- `PE_SUSPEND_RX` (R172). -/
  | peSuspendRx
  /-- `PE_VERIFY` (R173). -/
  | peVerify
  /-- `PE_DISPATCH` (R175). -/
  | peDispatch
  /-- `TX_READY` (R274). -/
  | txReady
  /-- `TX_COMPLETE` (R275). -/
  | txComplete
  /-- `TICK` (R290). -/
  | tick
  /-- `PING`: `p = []` (R200). -/
  | ping
  /-- `DEVICE_INFO`: `p = [0x00]` (R201). -/
  | deviceInfo
  /-- `GET_NAME`: `p = [0x00, CMD_NAME]` (R202). -/
  | getName
  /-- `GET_UPTIME`: `p = [0x00, CMD_UPTIME]` (R203). -/
  | getUptime
  /-- `GET_VERSION`: `p = [0x00, CMD_VERSION]` (R204). -/
  | getVersion
  /-- `GET_COUNT_CORRECT`: `p = [0x00, CMD_COUNT_CORRECT]` (R205). -/
  | getCountCorrect
  /-- `GET_COUNT_OVERFLOW`: `p = [0x00, CMD_COUNT_OVERFLOW]` (R206). -/
  | getCountOverflow
  /-- `GET_COUNT_LOST`: `p = [0x00, CMD_COUNT_LOST]` (R207). -/
  | getCountLost
  /-- `GET_COUNT_MISMATCH`: `p = [0x00, CMD_COUNT_MISMATCH]` (R208). -/
  | getCountMismatch
  /-- `GET_COUNT_ALL`: `p = [0x00, CMD_COUNT_ALL]` (R209). -/
  | getCountAll
  /-- `RESET_COUNTS`: `p = [0x00, CMD_COUNT_RESET]` (R210). -/
  | resetCounts
  /-- `GET_UUID`: `p = [0x00, CMD_UUID]` (R211). -/
  | getUuid
  /-- `GET_EXTENDED_INFO`: `p = [0x00, CMD_EXTENDED_INFO]` (R212). -/
  | getExtendedInfo
  /-- `BASE_RESERVED_2`: `p = [0x00, c]`, `c` none of the eleven codes (R213). -/
  | baseReserved2 (c : Byte)
  /-- `BASE_RESERVED_N`: `p = 0x00 :: rest`, at least two bytes in `rest` (R214). -/
  | baseReservedN (rest : List Byte)
  /-- `APP_REQUEST`: the whole payload `p`, `p[0] != 0x00` (R215). -/
  | appRequest (p : List Byte)
  /-- `BC_LEGACY`: `p = []` (R231). -/
  | bcLegacy
  /-- `BC_APP`: `p = PROTOCOL_ID :: rest` (R232). -/
  | bcApp (rest : List Byte)
  /-- `BC_UUID_REQUEST`: `p = [ALL_DEVICES, SUB_UUID]` (R240). -/
  | bcUuidRequest
  /-- `BC_UUID_PING`: `p = [ALL_DEVICES, SUB_UUID] ++ le(UUID, 4)` (R241). -/
  | bcUuidPing
  /-- `BC_UUID_GET_ADDRESS`: the ping's payload, then `KEY_GET_ADDRESS` (R242). -/
  | bcUuidGetAddress
  /-- `BC_UUID_RESET_ADDRESS`: the ping's payload, then `KEY_RESET_ADDRESS` (R243). -/
  | bcUuidResetAddress
  /-- `BC_UUID_SET_ADDRESS`: the ping's payload, then `KEY_SET_ADDRESS` and `le(a, ADDR_LEN)` (R244). -/
  | bcUuidSetAddress (a : Addr)
  /-- `BC_UUID_RESERVED`: `p = [ALL_DEVICES, SUB_UUID] ++ rest`, `rest` of no other row (R245). -/
  | bcUuidReserved (rest : List Byte)
  /-- `BC_ENABLE_NEIGHBOURS`: `p = [ALL_DEVICES, SUB_ENABLE_NEIGHBOURS]` (R247). -/
  | bcEnableNeighbours
  /-- `BC_DISABLE_NEIGHBOURS`: `p = [ALL_DEVICES, SUB_DISABLE_NEIGHBOURS]` (R248). -/
  | bcDisableNeighbours
  /-- `BC_RESET_ALL_ADDRESSES`: `p = [ALL_DEVICES, SUB_RESET_ALL_ADDRESSES]` (R249). -/
  | bcResetAllAddresses
  /-- `BC_BUS_ASSERT`: `p = [ALL_DEVICES, SUB_BUS_ASSERT, m] ++ bytes` (R252). -/
  | bcBusAssert (m : Byte) (bytes : List Byte)
  /-- `BC_RESERVED`: every other broadcast payload `p` (R258). -/
  | bcReserved (p : List Byte)
deriving DecidableEq, Repr

end Sys2Proof
end

