-- ==== Sys2Proof/WellFormed.lean ====
section
/-! DEFINITION. When an instruction is one that a frame or an event code can stand for, under a configuration:
its operands match its row's pattern (30_encoding.md R108 to R110) and its payload can be received (R102). -/

namespace Sys2Proof

/-- The length of the payload an instruction's frame carries, by its row (R108 to R110); 0 for an operation. -/
def payloadLength (c : Config) : Instr → Nat
  | .reset | .rxByte _ | .rxTimeout | .pePoll | .peSuspendRx | .peVerify | .peDispatch | .txReady
  | .txComplete | .tick => 0
  | .ping | .bcLegacy => 0
  | .deviceInfo => 1
  | .getName | .getUptime | .getVersion | .getCountCorrect | .getCountOverflow | .getCountLost
  | .getCountMismatch | .getCountAll | .resetCounts | .getUuid | .getExtendedInfo
  | .baseReserved2 _ => 2
  | .baseReservedN rest => 1 + rest.length
  | .appRequest p => p.length
  | .bcApp rest => 1 + rest.length
  | .bcUuidRequest | .bcEnableNeighbours | .bcDisableNeighbours | .bcResetAllAddresses => 2
  | .bcUuidPing => 6
  | .bcUuidGetAddress | .bcUuidResetAddress => 7
  | .bcUuidSetAddress _ => 7 + c.addrLen
  | .bcUuidReserved rest => 2 + rest.length
  | .bcBusAssert _ bytes => 3 + bytes.length
  | .bcReserved p => p.length

/-- The bytes after `[ALL_DEVICES, SUB_UUID]` are those of one of the rows of R110 or empty (R240). -/
abbrev uuidRowMatches (c : Config) (rest : List Byte) : Prop :=
  rest = [] ∨ rest = uuidField c ∨ rest = uuidField c ++ [c.keyGetAddress] ∨
    rest = uuidField c ++ [c.keyResetAddress] ∨
    (rest.length = 5 + c.addrLen ∧ rest.take 5 = uuidField c ++ [c.keySetAddress])

/-- A broadcast payload that some row other than `BC_RESERVED` takes (R109, R258). -/
abbrev broadcastRowMatches (c : Config) (p : List Byte) : Prop :=
  p = [] ∨ p.head? = some c.protocolId ∨
    p.take 2 = [c.allDevices, c.subUuid] ∨
    p = [c.allDevices, c.subEnableNeighbours] ∨ p = [c.allDevices, c.subDisableNeighbours] ∨
    p = [c.allDevices, c.subResetAllAddresses] ∨
    (3 ≤ p.length ∧ p.take 2 = [c.allDevices, c.subBusAssert])

/-- The operands match the row's pattern (R108 to R111). -/
def operandsOk (c : Config) : Instr → Bool
  | .baseReserved2 code => code ∉ c.baseCodes
  | .baseReservedN rest => 2 ≤ rest.length
  | .appRequest p => p ≠ [] ∧ p.head? ≠ some 0x00
  | .bcUuidSetAddress a => a.toNat < 256 ^ c.addrLen
  | .bcUuidReserved rest => ¬ uuidRowMatches c rest
  | .bcReserved p => ¬ broadcastRowMatches c p
  | .reset | .rxByte _ | .rxTimeout | .pePoll | .peSuspendRx | .peVerify | .peDispatch | .txReady
  | .txComplete | .tick | .ping | .deviceInfo | .getName | .getUptime | .getVersion | .getCountCorrect
  | .getCountOverflow | .getCountLost | .getCountMismatch | .getCountAll | .resetCounts | .getUuid
  | .getExtendedInfo | .bcLegacy | .bcApp _ | .bcUuidRequest | .bcUuidPing | .bcUuidGetAddress
  | .bcUuidResetAddress | .bcEnableNeighbours | .bcDisableNeighbours | .bcResetAllAddresses
  | .bcBusAssert _ _ => true

/-- An instruction is well formed under a configuration: its operands match its row, and a frame carrying
it is no longer than the longest one the receiver accepts, `BUF_SIZE - 1` bytes (R74, R102). -/
abbrev WellFormed (c : Config) (i : Instr) : Prop :=
  operandsOk c i = true ∧ payloadLength c i + c.addrLen + c.csumLen ≤ c.bufSize - 1

end Sys2Proof
end

