-- ==== Sys2Proof/Decode.lean ====
section
/-! DEFINITION. Decoding and encoding: the event codes of 30_encoding.md R130 and the payload patterns of R108 to
R110 in the order of R112. The decoder is total; it refuses an unusable event code by name. -/

namespace Sys2Proof

/-- Why an event code cannot be read (R130; log 14). -/
inductive DecodeError where
  /-- No digit at all. -/
  | noCode
  /-- A code 1010 to 1111, which R130 leaves unused. -/
  | unusedCode (d : Digit)
  /-- `RX_BYTE`'s code without its eight operand bits. -/
  | truncatedOperand
  /-- Digits left over after one whole code. -/
  | trailingDigits
deriving DecidableEq, Repr

/-- Where an instruction's bits stand: an operation is an event code, a frame command is the payload of a
unicast or of a broadcast frame (R107, R130). -/
inductive Wire where
  | event (digits : List Digit)
  | unicast (payload : List Byte)
  | broadcast (payload : List Byte)
deriving DecidableEq, Repr

/-- Read one event code off the front of a digit sequence (R130). -/
def decodeEvent : List Digit → Except DecodeError (Instr × List Digit)
  | [] => .error .noCode
  | d :: rest =>
    match d.toNat with
    | 0 => .ok (.reset, rest)
    | 1 =>
      match rest with
      | hi :: lo :: rest' => .ok (.rxByte (hi ++ lo), rest')
      | _ => .error .truncatedOperand
    | 2 => .ok (.rxTimeout, rest)
    | 3 => .ok (.pePoll, rest)
    | 4 => .ok (.peSuspendRx, rest)
    | 5 => .ok (.peVerify, rest)
    | 6 => .ok (.peDispatch, rest)
    | 7 => .ok (.txReady, rest)
    | 8 => .ok (.txComplete, rest)
    | 9 => .ok (.tick, rest)
    | _ => .error (.unusedCode d)

/-- The unicast pattern table of R108, tested top to bottom (R112). -/
def decodeRequest (c : Config) (p : List Byte) : Instr :=
  if p.length = 0 then .ping
  else if p = [0x00] then .deviceInfo
  else if p = [0x00, c.cmdName] then .getName
  else if p = [0x00, c.cmdUptime] then .getUptime
  else if p = [0x00, c.cmdVersion] then .getVersion
  else if p = [0x00, c.cmdCountCorrect] then .getCountCorrect
  else if p = [0x00, c.cmdCountOverflow] then .getCountOverflow
  else if p = [0x00, c.cmdCountLost] then .getCountLost
  else if p = [0x00, c.cmdCountMismatch] then .getCountMismatch
  else if p = [0x00, c.cmdCountAll] then .getCountAll
  else if p = [0x00, c.cmdCountReset] then .resetCounts
  else if p = [0x00, c.cmdUuid] then .getUuid
  else if p = [0x00, c.cmdExtendedInfo] then .getExtendedInfo
  else if p.length = 2 ∧ p.head? = some 0x00 then .baseReserved2 (p.getD 1 0)
  else if 3 ≤ p.length ∧ p.head? = some 0x00 then .baseReservedN (p.drop 1)
  else .appRequest p

/-- The broadcast pattern tables of R109 and R110, tested top to bottom (R112). -/
def decodeBroadcast (c : Config) (p : List Byte) : Instr :=
  if p.length = 0 then .bcLegacy
  else if p.head? = some c.protocolId then .bcApp (p.drop 1)
  else if p = [c.allDevices, c.subUuid] then .bcUuidRequest
  else if p = uuidHead c then .bcUuidPing
  else if p = uuidHead c ++ [c.keyGetAddress] then .bcUuidGetAddress
  else if p = uuidHead c ++ [c.keyResetAddress] then .bcUuidResetAddress
  else if p.length = 7 + c.addrLen ∧ p.take 7 = uuidHead c ++ [c.keySetAddress] then
    .bcUuidSetAddress (addrOf (p.drop 7))
  else if 3 ≤ p.length ∧ p.take 2 = [c.allDevices, c.subUuid] then .bcUuidReserved (p.drop 2)
  else if p = [c.allDevices, c.subEnableNeighbours] then .bcEnableNeighbours
  else if p = [c.allDevices, c.subDisableNeighbours] then .bcDisableNeighbours
  else if p = [c.allDevices, c.subResetAllAddresses] then .bcResetAllAddresses
  else if 3 ≤ p.length ∧ p.take 2 = [c.allDevices, c.subBusAssert] then
    .bcBusAssert (p.getD 2 0) (p.drop 3)
  else .bcReserved p

/-- Decode one whole instruction; an event code must use up its digits. -/
def decode (c : Config) : Wire → Except DecodeError Instr
  | .event digits =>
    match decodeEvent digits with
    | .error e => .error e
    | .ok (i, []) => .ok i
    | .ok (_, _ :: _) => .error .trailingDigits
  | .unicast p => .ok (decodeRequest c p)
  | .broadcast p => .ok (decodeBroadcast c p)

/-- The bits of an instruction: its event code (R130) or the payload of its frame (R108 to R110). -/
def encode (c : Config) : Instr → Wire
  | .reset => .event [0x0]
  | .rxByte b => .event [0x1, b.extractLsb' 4 4, b.extractLsb' 0 4]
  | .rxTimeout => .event [0x2]
  | .pePoll => .event [0x3]
  | .peSuspendRx => .event [0x4]
  | .peVerify => .event [0x5]
  | .peDispatch => .event [0x6]
  | .txReady => .event [0x7]
  | .txComplete => .event [0x8]
  | .tick => .event [0x9]
  | .ping => .unicast []
  | .deviceInfo => .unicast [0x00]
  | .getName => .unicast [0x00, c.cmdName]
  | .getUptime => .unicast [0x00, c.cmdUptime]
  | .getVersion => .unicast [0x00, c.cmdVersion]
  | .getCountCorrect => .unicast [0x00, c.cmdCountCorrect]
  | .getCountOverflow => .unicast [0x00, c.cmdCountOverflow]
  | .getCountLost => .unicast [0x00, c.cmdCountLost]
  | .getCountMismatch => .unicast [0x00, c.cmdCountMismatch]
  | .getCountAll => .unicast [0x00, c.cmdCountAll]
  | .resetCounts => .unicast [0x00, c.cmdCountReset]
  | .getUuid => .unicast [0x00, c.cmdUuid]
  | .getExtendedInfo => .unicast [0x00, c.cmdExtendedInfo]
  | .baseReserved2 code => .unicast [0x00, code]
  | .baseReservedN rest => .unicast (0x00 :: rest)
  | .appRequest p => .unicast p
  | .bcLegacy => .broadcast []
  | .bcApp rest => .broadcast (c.protocolId :: rest)
  | .bcUuidRequest => .broadcast [c.allDevices, c.subUuid]
  | .bcUuidPing => .broadcast (uuidHead c)
  | .bcUuidGetAddress => .broadcast (uuidHead c ++ [c.keyGetAddress])
  | .bcUuidResetAddress => .broadcast (uuidHead c ++ [c.keyResetAddress])
  | .bcUuidSetAddress a => .broadcast (uuidHead c ++ [c.keySetAddress] ++ addrField c a)
  | .bcUuidReserved rest => .broadcast ([c.allDevices, c.subUuid] ++ rest)
  | .bcEnableNeighbours => .broadcast [c.allDevices, c.subEnableNeighbours]
  | .bcDisableNeighbours => .broadcast [c.allDevices, c.subDisableNeighbours]
  | .bcResetAllAddresses => .broadcast [c.allDevices, c.subResetAllAddresses]
  | .bcBusAssert m bytes => .broadcast ([c.allDevices, c.subBusAssert, m] ++ bytes)
  | .bcReserved p => .broadcast p

/-- The bytes of a table word of `nbits` bits, first byte in the most significant bits, as the table numbers
them (spec/opcode_table.json "match": `p[0]` is the high byte of `0x000A`). -/
def tableBytes (nbits w : Nat) : List Byte := (le w ((nbits + 7) / 8)).reverse

/-- Where the bits of an opcode-table row stand. A row says its frame class only in its format text, so words
overlap: up to 8 bits with a value below 16 are an event code, `0x1bb` in up to 16 bits is `RX_BYTE`, other
words of at most two bytes are a unicast payload, longer ones a broadcast payload (DESIGN CHOICE, log 9). -/
def tableWire (nbits w : Nat) : Wire :=
  if 1 ≤ nbits ∧ nbits ≤ 8 ∧ w < 16 then .event [BitVec.ofNat 4 w]
  else if 9 ≤ nbits ∧ nbits ≤ 16 ∧ w / 256 = 1 then
    .event [BitVec.ofNat 4 (w / 256), BitVec.ofNat 4 (w / 16), BitVec.ofNat 4 w]
  else if nbits ≤ 16 then .unicast (tableBytes nbits w)
  else .broadcast (tableBytes nbits w)

/-- The instruction the decoder reads from an opcode-table word, under the default codes (CFG0). -/
def decodeTableWord (nbits w : Nat) : Option Instr :=
  match decode Config.cfg0 (tableWire nbits w) with
  | .ok i => some i
  | .error _ => none

end Sys2Proof
end

