-- ==== Sys2Proof/Machine/Checksum.lean ====
section
/-! DEFINITION. The checksum unit (40_checksum.md R140 to R145) and the whole frames it closes. -/

namespace Sys2Proof

/-- `xor8(s)`, start value 0x00 (R141). -/
def xor8 (s : List Byte) : Byte := s.foldl (fun c b => c ^^^ b) 0x00

/-- One of the eight shifts of a CRC byte step, most significant bit first (R142). -/
def crc8Shift (poly c : Byte) : Byte := if c.msb then (c <<< 1) ^^^ poly else c <<< 1

/-- `n` shifts of the CRC register (R142). -/
def crc8Shifts (poly : Byte) : Nat → Byte → Byte
  | 0, c => c
  | n + 1, c => crc8Shifts poly n (crc8Shift poly c)

/-- One byte step of the CRC: the byte is XORed in, then eight shifts (R142). -/
def crc8Byte (poly c b : Byte) : Byte := crc8Shifts poly 8 (c ^^^ b)

/-- `crc8(s)` with the configuration's polynomial and initial value (R142). -/
def crc8 (c : Config) (s : List Byte) : Byte := s.foldl (crc8Byte c.crc8Poly) c.crc8Init

/-- `csum(s)`, the build-selected checksum (R143). -/
def csum (c : Config) (s : List Byte) : Byte :=
  match c.csumKind with
  | .xor => xor8 s
  | .crc8 => crc8 c s

/-- `csum_ok(f)`, the verify function over a whole frame (R144). -/
def csumOk (c : Config) (f : List Byte) : Bool :=
  if f.length < c.addrLen + c.csumLen then false
  else f.getLast? = some (csum c f.dropLast)

/-- A whole frame: address field, payload, checksum over both (R100, R103, R132). -/
def frameBytes (c : Config) (a : Addr) (payload : List Byte) : List Byte :=
  (addrField c a ++ payload) ++ [csum c (addrField c a ++ payload)]

/-- The reply frame with payload `r` of a device whose address is `a`: addressed `MASTER_ADDR | a`
(R106, R145, R271). -/
def replyFrame (c : Config) (a : Addr) (r : List Byte) : List Byte := frameBytes c (c.masterAddr ||| a) r

end Sys2Proof
end

