-- ==== Sys2Proof/Machine/State.lean ====
section
/-! DEFINITION. The state of one slave device (10_state.md), the reasons a step can stop, and the state after reset
(R62, R350). Everything here is plain data. -/

namespace Sys2Proof.Machine

/-- `pe_phase`: where the Processing Engine stands in one call of `runPendingWork()` (R26). -/
inductive PePhase where
  | idle
  | latched
  | verify
  | dispatch
deriving DecidableEq, Repr

/-- `tx_state`: the name of the pair (`tx_ready_en`, `tx_complete_en`) (R27). The pair (1, 1), which R27 says is
never reached, is named `bothEnabled`. -/
inductive TxState where
  | idle
  | sending
  | draining
  | bothEnabled
deriving DecidableEq, Repr

/-- The two address spaces (R70). -/
inductive Space where
  | rx
  | tx
deriving DecidableEq, Repr

/-- The error classes of the taxonomy (R300 to R305). -/
inductive ErrorClass where
  | checksumMismatch
  | bufferOverflow
  | packetLost
  | addressMismatch
  | malformedBroadcast
deriving DecidableEq, Repr

/-- The spec's sticky mark for a situation the source leaves undefined (R51). -/
inductive FaultMark where
  /-- A reply longer than `MAX_PAYLOAD` (R272). -/
  | replyTooLong
  /-- `TX_START` while an earlier reply is still leaving (R273). -/
  | txOverlap
deriving DecidableEq, Repr

/-- The output events of the trace (R14). -/
inductive OutEvent where
  | txByte (b : Byte)
  | lineDrive (v : Bool)
  | rxEnable (v : Bool)
  | timerRestart
  | busAssert
  | segment (v : Bool)
  | heartbeatToggle
  | appRequest (p : List Byte)
  | appBroadcast (p : List Byte) (id : Byte)
deriving DecidableEq, Repr

/-- A buffer's contents: (index, byte) pairs, indices strictly rising; an unlisted index has not been written
since reset and reads as no value (R48, R49; DESIGN CHOICE, log 6). -/
abbrev Memory := List Host.Cell

/-- The whole state of one device (R20), with the model's own fields at the end. -/
structure State where
  /-- The configuration, written by no operation (log 1); holds `uuid` and the identity constants (R34, R44). -/
  cfg : Config
  /-- `rx_offset` (R21). -/
  rxOffset : Nat
  /-- `tx_len` (R22). -/
  txLen : Nat
  /-- `tx_offset` (R23). -/
  txOffset : Nat
  /-- `pe_len` (R24). -/
  peLen : Nat
  /-- `hb_div` (R25). -/
  hbDiv : Nat
  /-- `pe_phase` (R26). -/
  pePhase : PePhase
  /-- `overflow_flag` (R28). -/
  overflowFlag : Bool
  /-- `lost_flag` (R29). -/
  lostFlag : Bool
  /-- `heartbeat_suppress` (R30). -/
  heartbeatSuppress : Bool
  /-- `timer_armed` (R31). -/
  timerArmed : Bool
  /-- `pending_len` (R32). -/
  pendingLen : Nat
  /-- `my_address` (R33). -/
  myAddress : Addr
  /-- `cnt_correct` (R35). -/
  cntCorrect : Word32
  /-- `cnt_overflow` (R35). -/
  cntOverflow : Word32
  /-- `cnt_lost` (R35). -/
  cntLost : Word32
  /-- `cnt_mismatch` (R35). -/
  cntMismatch : Word32
  /-- `uptime` (R36). -/
  uptime : Word32
  /-- `rx_enable` (R37). -/
  rxEnable : Bool
  /-- `line_drive` (R38). -/
  lineDrive : Bool
  /-- `segment_enable` (R39). -/
  segmentEnable : Bool
  /-- `tx_ready_en` (R40). -/
  txReadyEn : Bool
  /-- `tx_complete_en` (R41). -/
  txCompleteEn : Bool
  /-- `heartbeat` (R42). -/
  heartbeat : Bool
  /-- `RX`, the ReceiveBuffer (R48). -/
  rx : Memory
  /-- `TX`, the TransmitBuffer (R49). -/
  tx : Memory
  /-- `fault` (R51). -/
  fault : Option FaultMark
  /-- The output trace, oldest event first (R14). -/
  trace : List OutEvent
  /-- MODEL'S OWN: the operations the environment offers next, as R130's digits (log 2). -/
  stimulus : List Digit
  /-- MODEL'S OWN: the answers the application request handler gives next (R12, R215; log 11). -/
  appAnswers : List Result
  /-- MODEL'S OWN: how many answers came from the free value `Config.appAnswer` (log 11). -/
  appCalls : Nat
deriving DecidableEq, Repr

/-- Why a step stops. -/
inductive Fault where
  /-- Raised by every operation but `RESET` and every frame command when its enabling condition is false:
  the spec gives no step there (R12, R160, R279: "not enabled: no step"). Safe (log 4). -/
  | notEnabled
  /-- Raised by everything but `RESET` while the device's fault mark is set: nothing is enabled (R51). Safe (log 5). -/
  | marked (m : FaultMark)
  /-- Raised by a read of a buffer byte that nothing has written since reset, which the spec leaves unspecified
  and says no rule reads (R48, R49). Safe (log 6). -/
  | unwritten (sp : Space) (i : Nat)
  /-- Raised by an access at an index outside the buffer, which the spec says cannot be expressed (R70, R76).
  Safe (log 7). -/
  | outsideBuffer (sp : Space) (i : Nat)
deriving DecidableEq, Repr

/-- Why an instruction has no meaning. -/
inductive Refusal where
  /-- Raised by an arm of `exec` whose instruction is not modelled yet; no arm does. Safe. -/
  | notModelled (mnemonic : String)
  /-- Raised by `RESET` when the configuration violates a constraint: the model has no run for it (R352). Safe (log 18). -/
  | badConfiguration
  /-- Raised by the step when the next stimulus digits are no event code (R130). Safe (log 14). -/
  | undecodable (e : DecodeError)
deriving DecidableEq, Repr

/-- `uuid`, always the configuration's `UUID` (R34). -/
def State.uuid (s : State) : Word32 := s.cfg.uuid

/-- `tx_state` (R27). -/
def State.txState (s : State) : TxState :=
  match s.txReadyEn, s.txCompleteEn with
  | false, false => .idle
  | true, false => .sending
  | false, true => .draining
  | true, true => .bothEnabled

/-- The reset state under a configuration (R62). -/
def State.initial (c : Config) : State where
  cfg := c
  rxOffset := 0
  txLen := 0
  txOffset := 0
  peLen := 0
  hbDiv := 0
  pePhase := .idle
  overflowFlag := false
  lostFlag := false
  heartbeatSuppress := false
  timerArmed := false
  pendingLen := 0
  myAddress := c.initialAddress
  cntCorrect := 0
  cntOverflow := 0
  cntLost := 0
  cntMismatch := 0
  uptime := 0
  rxEnable := true
  lineDrive := false
  segmentEnable := c.segmentEnableReset
  txReadyEn := false
  txCompleteEn := false
  heartbeat := false
  rx := []
  tx := []
  fault := none
  trace := []
  stimulus := []
  appAnswers := []
  appCalls := 0

/-- The machine right after reset (R62), under the reference configuration CFG0 (DESIGN CHOICE, log 1). -/
def State.reset : State := State.initial Config.cfg0

end Sys2Proof.Machine
end

