-- ==== Sys2Proof/Machine/Ops.lean ====
section
/-! DEFINITION. The shared operations: buffer access (20_memory.md), output events (00_scope.md R14), raising an error
class (60_exceptions.md R300), the receive enable (R37), and how an enabled operation is performed (R12, R51). -/

namespace Sys2Proof.Machine

/-- The byte a buffer holds at an index, if it has been written (R48, R49). -/
def Memory.read : Memory → Nat → Option Byte
  | [], _ => none
  | (k, v) :: rest, i => if k = i then some v else Memory.read rest i

/-- Write one byte, keeping the indices strictly rising; changes only the byte written (R78). -/
def Memory.write : Memory → Nat → Byte → Memory
  | [], i, b => [(i, b)]
  | (k, v) :: rest, i, b =>
    if i < k then (i, b) :: (k, v) :: rest
    else if i = k then (i, b) :: rest
    else (k, v) :: Memory.write rest i b

/-- Write a byte sequence at consecutive indices. -/
def Memory.writeAll (m : Memory) (i : Nat) : List Byte → Memory
  | [] => m
  | b :: rest => Memory.writeAll (Memory.write m i b) (i + 1) rest

/-- The canonical form of a buffer: indices strictly rising (log 6). -/
abbrev Memory.wf (m : Memory) : Prop := m.Pairwise (fun a b => a.1 < b.1)

/-- The contents of a buffer. -/
def State.buffer (s : State) : Space → Memory
  | .rx => s.rx
  | .tx => s.tx

/-- The state with a buffer's contents replaced. -/
def State.withBuffer (s : State) (sp : Space) (m : Memory) : State :=
  { s with rx := if sp = .rx then m else s.rx, tx := if sp = .tx then m else s.tx }

/-- `MemRead` of one byte (R16, R77). -/
def readByte (s : State) (sp : Space) (i : Nat) : Except Fault Byte :=
  if i < s.cfg.bufSize then
    match (s.buffer sp).read i with
    | some b => .ok b
    | none => .error (.unwritten sp i)
  else .error (.outsideBuffer sp i)

/-- `MemWrite` of one byte (R16, R77). -/
def writeByte (s : State) (sp : Space) (i : Nat) (b : Byte) : Except Fault State :=
  if i < s.cfg.bufSize then .ok (s.withBuffer sp ((s.buffer sp).write i b))
  else .error (.outsideBuffer sp i)

/-- `MemRead(S, a, n)`, byte by byte (R16, R77). -/
def memRead (s : State) (sp : Space) (a : Nat) : Nat → Except Fault (List Byte)
  | 0 => .ok []
  | n + 1 =>
    match readByte s sp a with
    | .error e => .error e
    | .ok b =>
      match memRead s sp (a + 1) n with
      | .error e => .error e
      | .ok bs => .ok (b :: bs)

/-- `MemWrite(S, a, n, v)`, byte by byte (R16, R77). -/
def memWrite (s : State) (sp : Space) (a : Nat) : List Byte → Except Fault State
  | [] => .ok s
  | b :: bs =>
    match writeByte s sp a b with
    | .error e => .error e
    | .ok s' => memWrite s' sp (a + 1) bs

/-- `emit E` (R14, R16). -/
def emit (e : OutEvent) (s : State) : State := { s with trace := s.trace ++ [e] }

/-- Enable or disable the receive notification; only a change of value emits `RxEnable(v)` (R37). -/
def setRxEnable (v : Bool) (s : State) : State :=
  { s with
    rxEnable := v
    trace := s.trace ++ (if s.rxEnable = v then [] else [.rxEnable v]) }

/-- `raise X`: the whole effect of an error class, a counter or nothing, wrapping modulo 2^32
(R300 to R305, R35). Control is not transferred and there is nothing to return from (R300, R314). -/
def raiseError (x : ErrorClass) (s : State) : State :=
  { s with
    cntMismatch := s.cntMismatch + (if x = .checksumMismatch then 1 else 0)
    cntOverflow := s.cntOverflow + (if x = .bufferOverflow then 1 else 0)
    cntLost := s.cntLost + (if x = .packetLost then 1 else 0) }

/-- `raise X` when a condition holds. -/
def raiseWhen (cond : Bool) (x : ErrorClass) (s : State) : State := if cond then raiseError x s else s

/-- The outcome of an operation that ran or met an access fault. -/
def toOutcome : Except Fault State → Host.Outcome State Fault Refusal
  | .ok s => .next s
  | .error f => .fault f

/-- Perform an operation: nothing but `RESET` runs while the fault mark is set (R51), and an operation whose
enabling condition is false has no step (R12; log 4). -/
def perform (enabled : Bool) (s : State) (f : State → Except Fault State) :
    Host.Outcome State Fault Refusal :=
  match s.fault with
  | some m => .fault (.marked m)
  | none => if enabled then toOutcome (f s) else .fault .notEnabled

end Sys2Proof.Machine
end

