-- ==== Sys2Proof/Machine/Flags.lean ====
section
/-! DEFINITION. Conditions: when each operation is enabled (00_scope.md R12) and the tests that decide the flags
(41_frame_receiver.md R152, R156; 46_diagnostics.md R290). -/

namespace Sys2Proof.Machine

/-- The "enabled when" column of R12, leaving out the fault mark of R51. A frame command is dispatched when
`PE_DISPATCH` is enabled (log 8). -/
def enabledWhen : Instr → State → Bool
  | .reset, _ => true
  | .rxByte _, _ => true
  | .rxTimeout, s => s.timerArmed
  | .pePoll, s => s.pePhase = .idle
  | .peSuspendRx, s => s.pePhase = .latched
  | .peVerify, s => s.pePhase = .verify
  | .peDispatch, s => s.pePhase = .dispatch
  | .txReady, s => s.txReadyEn
  | .txComplete, s => s.txCompleteEn
  | .tick, _ => true
  | .ping, s | .deviceInfo, s | .getName, s | .getUptime, s | .getVersion, s | .getCountCorrect, s
  | .getCountOverflow, s | .getCountLost, s | .getCountMismatch, s | .getCountAll, s
  | .resetCounts, s | .getUuid, s | .getExtendedInfo, s | .baseReserved2 _, s
  | .baseReservedN _, s | .appRequest _, s | .bcLegacy, s | .bcApp _, s | .bcUuidRequest, s
  | .bcUuidPing, s | .bcUuidGetAddress, s | .bcUuidResetAddress, s | .bcUuidSetAddress _, s
  | .bcUuidReserved _, s | .bcEnableNeighbours, s | .bcDisableNeighbours, s
  | .bcResetAllAddresses, s | .bcBusAssert _ _, s | .bcReserved _, s => s.pePhase = .dispatch

/-- The byte about to be stored fills the buffer: the offset wraps and `overflow_flag` is set (R152). -/
def wrapsNow (s : State) : Bool := s.rxOffset + 1 = s.cfg.bufSize

/-- The address part of the acceptance test (R156). -/
def addressAccepted (s : State) (a : Addr) : Bool := a = s.myAddress || a = s.cfg.broadcastAddr

/-- The part of the acceptance test that needs no read of `RX`: no overflow, length above 1 (R156). -/
def lengthAccepted (s : State) : Bool := !s.overflowFlag && 1 < s.rxOffset

/-- This tick falls in a heartbeat slot (R290). -/
def heartbeatSlot (s : State) : Bool := s.cfg.heartbeatDiv ≤ s.hbDiv + 1

/-- This tick toggles the heartbeat: a slot that is not suppressed (R290). -/
def heartbeatToggles (s : State) : Bool := heartbeatSlot s && !s.heartbeatSuppress

end Sys2Proof.Machine
end

