-- ==== Sys2Proof/Machine/Diagnostics.lean ====
section
/-! DEFINITION. Diagnostics: `TICK` (46_diagnostics.md R290). -/

namespace Sys2Proof.Machine

/-- The effect of `TICK`: the uptime always advances; a heartbeat slot comes every `HEARTBEAT_DIV` ticks, and a
suppressed slot is skipped, not postponed (R290). -/
def tickOnce (s : State) : State :=
  { s with
    uptime := s.uptime + 1
    hbDiv := if heartbeatSlot s then 0 else s.hbDiv + 1
    heartbeat := s.heartbeat ^^ heartbeatToggles s
    trace := s.trace ++ (if heartbeatToggles s then [.heartbeatToggle] else []) }

/-- `TICK` (R290). -/
def execTick (s : State) : Host.Outcome State Fault Refusal :=
  perform (enabledWhen .tick s) s (fun s => .ok (tickOnce s))

end Sys2Proof.Machine
end

