-- ==== Sys2Proof/Machine/Transmitter.lean ====
section
/-! DEFINITION. The transmit-line turnaround sequencer: `TX_START`, `TX_READY`, `TX_COMPLETE` (45_transmitter.md). -/

namespace Sys2Proof.Machine

/-- The end of `TX_START`: the frame's length, the index, reception suspended, the line claimed (R270). -/
def claimLine (n : Nat) (s : State) : State :=
  emit (.lineDrive true)
    { setRxEnable false s with txLen := n, txOffset := 0, lineDrive := true, txReadyEn := true }

/-- `TX_START(r)` (R270), with the spec's two fault marks (R272, R273). The checksum is computed over the
bytes just written, which is what a read back of `TX` gives (R145; log 20). -/
def txStart (r : List Byte) (s : State) : Except Fault State :=
  if s.cfg.maxPayload < r.length then .ok { s with fault := some .replyTooLong }
  else if s.txState ≠ .idle then .ok { s with fault := some .txOverlap }
  else
    match memWrite s .tx 0 (replyFrame s.cfg s.myAddress r) with
    | .error e => .error e
    | .ok s' => .ok (claimLine (s.cfg.addrLen + r.length + s.cfg.csumLen) s')

/-- The byte at `tx_offset` is the reply frame's last (R274). -/
def lastByte (s : State) : Bool := s.txOffset + 1 = s.txLen

/-- After a byte has been handed over: advance, and on the last byte switch to the transmission-complete
notification (R274). -/
def advanceTx (s : State) : State :=
  { s with
    txOffset := s.txOffset + 1
    txReadyEn := s.txReadyEn && !lastByte s
    txCompleteEn := s.txCompleteEn || lastByte s }

/-- The effect of `TX_READY` (R274). -/
def sendByte (s : State) : Except Fault State :=
  match readByte s .tx s.txOffset with
  | .error e => .error e
  | .ok b => .ok (advanceTx (emit (.txByte b) s))

/-- `TX_READY` (R274). -/
def execTxReady (s : State) : Host.Outcome State Fault Refusal :=
  perform (enabledWhen .txReady s) s sendByte

/-- The effect of `TX_COMPLETE`: the line is released before reception resumes (R275). -/
def releaseLine (s : State) : State :=
  setRxEnable true (emit (.lineDrive false) { s with txCompleteEn := false, lineDrive := false })

/-- `TX_COMPLETE` (R275). -/
def execTxComplete (s : State) : Host.Outcome State Fault Refusal :=
  perform (enabledWhen .txComplete s) s (fun s => .ok (releaseLine s))

end Sys2Proof.Machine
end

