-- ==== Sys2Proof/Machine/Handlers.lean ====
section
/-! DEFINITION. What `PE_DISPATCH` does with a handler and its result (42_processing_engine.md R175, R178), shared by
every frame command. -/

namespace Sys2Proof.Machine

/-- A frame command's handler: its effect on the state and its result (R17). Handlers fail only through their
result (R217). -/
abbrev Handler := State → State × Result

/-- Return to `PE_IDLE`, the end of `PE_DISPATCH`; it is not reached when `TX_START` set the fault mark (R175). -/
def endDispatch (s : State) : State := if s.fault.isSome then s else { s with pePhase := .idle }

/-- Result handling (R175, R178): no answer resumes reception, a reply starts the transmitter. -/
def finishDispatch (out : State × Result) : Except Fault State :=
  match out.2 with
  | .noAnswer => .ok { setRxEnable true out.1 with pePhase := .idle }
  | .reply r =>
    match txStart r out.1 with
    | .error e => .error e
    | .ok s' => .ok (endDispatch s')

/-- The `PE_DISPATCH` step that dispatches a frame command whose handler is `h` (log 8). -/
def dispatchCommand (i : Instr) (h : Handler) (s : State) : Host.Outcome State Fault Refusal :=
  perform (enabledWhen i s) s (fun s => finishDispatch (h s))

/-- A handler that answers `r` and changes nothing. -/
def answer (r : List Byte) : Handler := fun s => (s, .reply r)

/-- A handler that answers nothing and changes nothing. -/
def silent : Handler := fun s => (s, .noAnswer)

/-- A handler that rejects a malformed broadcast: the error class without effect, and no answer (R305). -/
def malformed : Handler := fun s => (raiseError .malformedBroadcast s, .noAnswer)

end Sys2Proof.Machine
end

