-- ==== Sys2Proof/Machine/Broadcasts.lean ====
section
/-! DEFINITION. Broadcasts, address negotiation and the bus-assertion detector (44_broadcast_negotiation.md): the handler
of each command, its meaning as an instruction, and the dispatcher `processBroadcast` (R230). -/

namespace Sys2Proof.Machine

/-- `BC_LEGACY` (R231): the application broadcast handler with an empty payload and the literal id 0. -/
def handleBcLegacy : Handler := fun s => (emit (.appBroadcast [] 0x00) s, .noAnswer)

/-- `BC_APP` (R232): the remainder goes to the application broadcast handler. -/
def handleBcApp (rest : List Byte) : Handler := fun s =>
  (emit (.appBroadcast rest s.cfg.protocolId) s, .noAnswer)

/-- `BC_UUID_REQUEST` (R240): an unassigned device answers with its UUID. -/
def handleBcUuidRequest : Handler := fun s =>
  (s, if s.myAddress = 0 then .reply (uuidField s.cfg) else .noAnswer)

/-- `BC_UUID_PING` (R241): the empty reply. -/
def handleBcUuidPing : Handler := answer []

/-- `BC_UUID_GET_ADDRESS` (R242). -/
def handleBcUuidGetAddress : Handler := fun s => (s, .reply (addrField s.cfg s.myAddress))

/-- `BC_UUID_RESET_ADDRESS` (R243): the address is cleared before the acknowledgement is addressed. -/
def handleBcUuidResetAddress : Handler := fun s => ({ s with myAddress := 0 }, .reply [])

/-- The new address is in the open interval (0, `MASTER_ADDR`) (R244). -/
def newAddressOk (c : Config) (a : Addr) : Bool := 0 < a && a < c.masterAddr

/-- `BC_UUID_SET_ADDRESS` (R244): assign and answer 1, or refuse and answer 0. -/
def handleBcUuidSetAddress (a : Addr) : Handler := fun s =>
  if newAddressOk s.cfg a then ({ s with myAddress := a }, .reply [0x01]) else (s, .reply [0x00])

/-- `BC_UUID_RESERVED` (R245): no answer, whatever the bytes. -/
def handleBcUuidReserved (_rest : List Byte) : Handler := malformed

/-- `BC_ENABLE_NEIGHBOURS` (R247). -/
def handleBcEnableNeighbours : Handler := fun s =>
  (emit (.segment true) { s with segmentEnable := true }, .noAnswer)

/-- `BC_DISABLE_NEIGHBOURS` (R248). -/
def handleBcDisableNeighbours : Handler := fun s =>
  (emit (.segment false) { s with segmentEnable := false }, .noAnswer)

/-- `BC_RESET_ALL_ADDRESSES` (R249). -/
def handleBcResetAllAddresses : Handler := fun s => ({ s with myAddress := 0 }, .noAnswer)

/-- `BC_BUS_ASSERT` (R252 to R256): a bad mask length is malformed; otherwise assert when the masked UUID equals
the pattern. Never an answer. -/
def handleBcBusAssert (m : Byte) (bytes : List Byte) : Handler := fun s =>
  if maskLengthOk m then
    (if assertMatches s.uuid m bytes then emit .busAssert s else s, .noAnswer)
  else malformed s

/-- `BC_RESERVED` (R258): no answer, whatever the payload. -/
def handleBcReserved (_p : List Byte) : Handler := malformed

/-- The UUID-addressed sub-commands: `ops` are the bytes after `p[1]`, so `len(p) = 2 + len(ops)` (R230). -/
def processUuid (ops : List Byte) : Handler := fun s =>
  if ops = [] then handleBcUuidRequest s
  else if ops.take 4 = uuidField s.cfg then
    match ops.drop 4 with
    | [] => handleBcUuidPing s
    | key :: operand =>
      if operand = [] ∧ key = s.cfg.keyGetAddress then handleBcUuidGetAddress s
      else if operand = [] ∧ key = s.cfg.keyResetAddress then handleBcUuidResetAddress s
      else if operand.length = s.cfg.addrLen ∧ key = s.cfg.keySetAddress then
        handleBcUuidSetAddress (addrOf operand) s
      else handleBcUuidReserved ops s
  else handleBcUuidReserved ops s

/-- The `ALL_DEVICES` broadcasts of at least two bytes, selected by `p[1]` (R230). -/
def processAllDevices (sub : Byte) (ops : List Byte) : Handler := fun s =>
  if sub = s.cfg.subUuid then processUuid ops s
  else if sub = s.cfg.subEnableNeighbours ∧ ops = [] then handleBcEnableNeighbours s
  else if sub = s.cfg.subDisableNeighbours ∧ ops = [] then handleBcDisableNeighbours s
  else if sub = s.cfg.subResetAllAddresses ∧ ops = [] then handleBcResetAllAddresses s
  else
    match ops with
    | m :: bytes =>
      if sub = s.cfg.subBusAssert then handleBcBusAssert m bytes s
      else handleBcReserved (s.cfg.allDevices :: sub :: ops) s
    | [] => handleBcReserved (s.cfg.allDevices :: sub :: ops) s

/-- `processBroadcast(p)` (R230). -/
def processBroadcast (p : List Byte) : Handler := fun s =>
  match p with
  | [] => handleBcLegacy s
  | b :: rest =>
    if b = s.cfg.protocolId then handleBcApp rest s
    else if b = s.cfg.allDevices then
      match rest with
      | sub :: ops => processAllDevices sub ops s
      | [] => handleBcReserved p s
    else handleBcReserved p s

/-- `BC_LEGACY` as an instruction (R231). -/
def execBcLegacy (s : State) : Host.Outcome State Fault Refusal := dispatchCommand .bcLegacy handleBcLegacy s

/-- `BC_APP` as an instruction (R232). -/
def execBcApp (rest : List Byte) (s : State) : Host.Outcome State Fault Refusal :=
  dispatchCommand (.bcApp rest) (handleBcApp rest) s

/-- `BC_UUID_REQUEST` as an instruction (R240). -/
def execBcUuidRequest (s : State) : Host.Outcome State Fault Refusal :=
  dispatchCommand .bcUuidRequest handleBcUuidRequest s

/-- `BC_UUID_PING` as an instruction (R241). -/
def execBcUuidPing (s : State) : Host.Outcome State Fault Refusal :=
  dispatchCommand .bcUuidPing handleBcUuidPing s

/-- `BC_UUID_GET_ADDRESS` as an instruction (R242). -/
def execBcUuidGetAddress (s : State) : Host.Outcome State Fault Refusal :=
  dispatchCommand .bcUuidGetAddress handleBcUuidGetAddress s

/-- `BC_UUID_RESET_ADDRESS` as an instruction (R243). -/
def execBcUuidResetAddress (s : State) : Host.Outcome State Fault Refusal :=
  dispatchCommand .bcUuidResetAddress handleBcUuidResetAddress s

/-- `BC_UUID_SET_ADDRESS` as an instruction (R244). -/
def execBcUuidSetAddress (a : Addr) (s : State) : Host.Outcome State Fault Refusal :=
  dispatchCommand (.bcUuidSetAddress a) (handleBcUuidSetAddress a) s

/-- `BC_UUID_RESERVED` as an instruction (R245). -/
def execBcUuidReserved (rest : List Byte) (s : State) : Host.Outcome State Fault Refusal :=
  dispatchCommand (.bcUuidReserved rest) (handleBcUuidReserved rest) s

/-- `BC_ENABLE_NEIGHBOURS` as an instruction (R247). -/
def execBcEnableNeighbours (s : State) : Host.Outcome State Fault Refusal :=
  dispatchCommand .bcEnableNeighbours handleBcEnableNeighbours s

/-- `BC_DISABLE_NEIGHBOURS` as an instruction (R248). -/
def execBcDisableNeighbours (s : State) : Host.Outcome State Fault Refusal :=
  dispatchCommand .bcDisableNeighbours handleBcDisableNeighbours s

/-- `BC_RESET_ALL_ADDRESSES` as an instruction (R249). -/
def execBcResetAllAddresses (s : State) : Host.Outcome State Fault Refusal :=
  dispatchCommand .bcResetAllAddresses handleBcResetAllAddresses s

/-- `BC_BUS_ASSERT` as an instruction (R252). -/
def execBcBusAssert (m : Byte) (bytes : List Byte) (s : State) : Host.Outcome State Fault Refusal :=
  dispatchCommand (.bcBusAssert m bytes) (handleBcBusAssert m bytes) s

/-- `BC_RESERVED` as an instruction (R258). -/
def execBcReserved (p : List Byte) (s : State) : Host.Outcome State Fault Refusal :=
  dispatchCommand (.bcReserved p) (handleBcReserved p) s

end Sys2Proof.Machine
end

