-- ==== Sys2Proof/Machine/Requests.lean ====
section
/-! DEFINITION. Unicast requests (43_base_requests.md): the handler of each command, its meaning as an instruction, and
the dispatcher `processRequest` (R199). -/

namespace Sys2Proof.Machine

/-- `PING` (R200): the empty reply. -/
def handlePing : Handler := answer []

/-- `DEVICE_INFO` (R201): eleven bytes. -/
def handleDeviceInfo : Handler := fun s =>
  (s, .reply ([s.cfg.protocolId, s.cfg.deviceTypeId, s.cfg.checksumTag] ++ le s.cfg.extLen 2 ++
    uuidField s.cfg ++ le s.cfg.uptimeFreq.toNat 2))

/-- `GET_NAME` (R202). -/
def handleGetName : Handler := fun s => (s, .reply s.cfg.name)

/-- `GET_UPTIME` (R203): the raw counter, for every `UPTIME_FREQ` (conflict C7). -/
def handleGetUptime : Handler := fun s => (s, .reply (le s.uptime.toNat 4))

/-- `GET_VERSION` (R204). -/
def handleGetVersion : Handler := fun s => (s, .reply s.cfg.version)

/-- `GET_COUNT_CORRECT` (R205). -/
def handleGetCountCorrect : Handler := fun s => (s, .reply (le s.cntCorrect.toNat 4))

/-- `GET_COUNT_OVERFLOW` (R206). -/
def handleGetCountOverflow : Handler := fun s => (s, .reply (le s.cntOverflow.toNat 4))

/-- `GET_COUNT_LOST` (R207). -/
def handleGetCountLost : Handler := fun s => (s, .reply (le s.cntLost.toNat 4))

/-- `GET_COUNT_MISMATCH` (R208). -/
def handleGetCountMismatch : Handler := fun s => (s, .reply (le s.cntMismatch.toNat 4))

/-- `GET_COUNT_ALL` (R209): correct, overflow, lost, mismatch. -/
def handleGetCountAll : Handler := fun s =>
  (s, .reply (le s.cntCorrect.toNat 4 ++ le s.cntOverflow.toNat 4 ++ le s.cntLost.toNat 4 ++
    le s.cntMismatch.toNat 4))

/-- `RESET_COUNTS` (R210): clears the four counters and acknowledges. -/
def handleResetCounts : Handler := fun s =>
  ({ s with cntCorrect := 0, cntOverflow := 0, cntLost := 0, cntMismatch := 0 }, .reply [])

/-- `GET_UUID` (R211). -/
def handleGetUuid : Handler := fun s => (s, .reply (uuidField s.cfg))

/-- `GET_EXTENDED_INFO` (R212). -/
def handleGetExtendedInfo : Handler := fun s =>
  (s, .reply ([BitVec.ofNat 8 s.cfg.name.length, BitVec.ofNat 8 s.cfg.version.length] ++
    le s.cfg.bufSize 2 ++ s.cfg.name ++ s.cfg.version))

/-- `BASE_RESERVED_2` (R213): no answer, whatever the code. -/
def handleBaseReserved2 (_code : Byte) : Handler := silent

/-- `BASE_RESERVED_N` (R214): no answer, whatever the bytes. -/
def handleBaseReservedN (_rest : List Byte) : Handler := silent

/-- The application request handler's answer to payload `p`: the next answer the environment supplies, else a
free value (R12, R215; log 11). -/
def askApplication (p : List Byte) : Handler := fun s =>
  match s.appAnswers with
  | r :: rest => ({ s with appAnswers := rest }, r)
  | [] => ({ s with appCalls := s.appCalls + 1 }, Config.appAnswer s.appCalls p)

/-- `APP_REQUEST` (R215): no answer if no handler is registered; otherwise the handler is called with the whole
payload. -/
def handleAppRequest (p : List Byte) : Handler := fun s =>
  if s.cfg.appRequestRegistered then askApplication p (emit (.appRequest p) s) else silent s

/-- The length-2 base commands, selected by `p[1]` (R199). -/
def processBase (code : Byte) : Handler := fun s =>
  if code = s.cfg.cmdName then handleGetName s
  else if code = s.cfg.cmdUptime then handleGetUptime s
  else if code = s.cfg.cmdVersion then handleGetVersion s
  else if code = s.cfg.cmdCountCorrect then handleGetCountCorrect s
  else if code = s.cfg.cmdCountOverflow then handleGetCountOverflow s
  else if code = s.cfg.cmdCountLost then handleGetCountLost s
  else if code = s.cfg.cmdCountMismatch then handleGetCountMismatch s
  else if code = s.cfg.cmdCountAll then handleGetCountAll s
  else if code = s.cfg.cmdCountReset then handleResetCounts s
  else if code = s.cfg.cmdUuid then handleGetUuid s
  else if code = s.cfg.cmdExtendedInfo then handleGetExtendedInfo s
  else handleBaseReserved2 code s

/-- `processRequest(p)` (R199). -/
def processRequest (p : List Byte) : Handler := fun s =>
  match p with
  | [] => handlePing s
  | b :: rest =>
    if b = 0x00 then
      match rest with
      | [] => handleDeviceInfo s
      | [code] => processBase code s
      | _ :: _ :: _ => handleBaseReservedN rest s
    else handleAppRequest p s

/-- `PING` as an instruction (R200). -/
def execPing (s : State) : Host.Outcome State Fault Refusal := dispatchCommand .ping handlePing s

/-- `DEVICE_INFO` as an instruction (R201). -/
def execDeviceInfo (s : State) : Host.Outcome State Fault Refusal := dispatchCommand .deviceInfo handleDeviceInfo s

/-- `GET_NAME` as an instruction (R202). -/
def execGetName (s : State) : Host.Outcome State Fault Refusal := dispatchCommand .getName handleGetName s

/-- `GET_UPTIME` as an instruction (R203). -/
def execGetUptime (s : State) : Host.Outcome State Fault Refusal := dispatchCommand .getUptime handleGetUptime s

/-- `GET_VERSION` as an instruction (R204). -/
def execGetVersion (s : State) : Host.Outcome State Fault Refusal := dispatchCommand .getVersion handleGetVersion s

/-- `GET_COUNT_CORRECT` as an instruction (R205). -/
def execGetCountCorrect (s : State) : Host.Outcome State Fault Refusal :=
  dispatchCommand .getCountCorrect handleGetCountCorrect s

/-- `GET_COUNT_OVERFLOW` as an instruction (R206). -/
def execGetCountOverflow (s : State) : Host.Outcome State Fault Refusal :=
  dispatchCommand .getCountOverflow handleGetCountOverflow s

/-- `GET_COUNT_LOST` as an instruction (R207). -/
def execGetCountLost (s : State) : Host.Outcome State Fault Refusal :=
  dispatchCommand .getCountLost handleGetCountLost s

/-- `GET_COUNT_MISMATCH` as an instruction (R208). -/
def execGetCountMismatch (s : State) : Host.Outcome State Fault Refusal :=
  dispatchCommand .getCountMismatch handleGetCountMismatch s

/-- `GET_COUNT_ALL` as an instruction (R209). -/
def execGetCountAll (s : State) : Host.Outcome State Fault Refusal :=
  dispatchCommand .getCountAll handleGetCountAll s

/-- `RESET_COUNTS` as an instruction (R210). -/
def execResetCounts (s : State) : Host.Outcome State Fault Refusal :=
  dispatchCommand .resetCounts handleResetCounts s

/-- `GET_UUID` as an instruction (R211). -/
def execGetUuid (s : State) : Host.Outcome State Fault Refusal := dispatchCommand .getUuid handleGetUuid s

/-- `GET_EXTENDED_INFO` as an instruction (R212). -/
def execGetExtendedInfo (s : State) : Host.Outcome State Fault Refusal :=
  dispatchCommand .getExtendedInfo handleGetExtendedInfo s

/-- `BASE_RESERVED_2` as an instruction (R213). -/
def execBaseReserved2 (code : Byte) (s : State) : Host.Outcome State Fault Refusal :=
  dispatchCommand (.baseReserved2 code) (handleBaseReserved2 code) s

/-- `BASE_RESERVED_N` as an instruction (R214). -/
def execBaseReservedN (rest : List Byte) (s : State) : Host.Outcome State Fault Refusal :=
  dispatchCommand (.baseReservedN rest) (handleBaseReservedN rest) s

/-- `APP_REQUEST` as an instruction (R215). -/
def execAppRequest (p : List Byte) (s : State) : Host.Outcome State Fault Refusal :=
  dispatchCommand (.appRequest p) (handleAppRequest p) s

end Sys2Proof.Machine
end

