-- ==== Sys2Proof/Machine/Engine.lean ====
section
/-! DEFINITION. The Processing Engine: `PE_POLL`, `PE_SUSPEND_RX`, `PE_VERIFY`, `PE_DISPATCH` (42_processing_engine.md). -/

namespace Sys2Proof.Machine

/-- The effect of `PE_POLL`: read and clear the handoff slot in one atomic step, if it holds a frame (R171, R84). -/
def pollFrame (s : State) : State :=
  if s.pendingLen = 0 then s
  else { s with peLen := s.pendingLen, pendingLen := 0, heartbeatSuppress := false, pePhase := .latched }

/-- `PE_POLL` (R171). -/
def execPePoll (s : State) : Host.Outcome State Fault Refusal :=
  perform (enabledWhen .pePoll s) s (fun s => .ok (pollFrame s))

/-- The effect of `PE_SUSPEND_RX` (R172). -/
def suspendReception (s : State) : State := { setRxEnable false s with pePhase := .verify }

/-- `PE_SUSPEND_RX` (R172). -/
def execPeSuspendRx (s : State) : Host.Outcome State Fault Refusal :=
  perform (enabledWhen .peSuspendRx s) s (fun s => .ok (suspendReception s))

/-- The mismatch arm of `PE_VERIFY`: counted, reception resumed, no handler (R173, R301). -/
def rejectFrame (s : State) : State :=
  { setRxEnable true (raiseError .checksumMismatch s) with pePhase := .idle }

/-- The other arm of `PE_VERIFY` (R173). -/
def confirmFrame (s : State) : State := { s with cntCorrect := s.cntCorrect + 1, pePhase := .dispatch }

/-- The effect of `PE_VERIFY`: the checksum validator over the latched frame (R173, R174). -/
def verifyFrame (s : State) : Except Fault State :=
  match memRead s .rx 0 s.peLen with
  | .error e => .error e
  | .ok f => .ok (if csumOk s.cfg f then confirmFrame s else rejectFrame s)

/-- `PE_VERIFY` (R173). -/
def execPeVerify (s : State) : Host.Outcome State Fault Refusal :=
  perform (enabledWhen .peVerify s) s verifyFrame

/-- The address value and the payload of the frame in `RX` (R72, R175 to R177). With `pe_len` too short for
address and checksum, which R177 excludes, the payload is empty (R15; log 23). -/
def latchedFrame (s : State) : Except Fault (Addr × List Byte) :=
  match memRead s .rx 0 s.cfg.addrLen with
  | .error e => .error e
  | .ok field =>
    match memRead s .rx s.cfg.addrLen (s.peLen - s.cfg.addrLen - s.cfg.csumLen) with
    | .error e => .error e
    | .ok p => .ok (addrOf field, p)

/-- Classification: the broadcast test comes first, everything else is a unicast request (R175, R176). -/
def processFrame (a : Addr) (p : List Byte) : Handler := fun s =>
  if a = s.cfg.broadcastAddr then processBroadcast p s else processRequest p s

/-- The effect of `PE_DISPATCH` (R175). -/
def dispatchFrame (s : State) : Except Fault State :=
  match latchedFrame s with
  | .error e => .error e
  | .ok (a, p) => finishDispatch (processFrame a p s)

/-- `PE_DISPATCH` (R175). -/
def execPeDispatch (s : State) : Host.Outcome State Fault Refusal :=
  perform (enabledWhen .peDispatch s) s dispatchFrame

/-- The frame command a frame stands for, by the pattern tables (R107 to R110). -/
def commandOf (c : Config) (a : Addr) (p : List Byte) : Instr :=
  if a = c.broadcastAddr then decodeBroadcast c p else decodeRequest c p

end Sys2Proof.Machine
end

