-- ==== Sys2Proof/Machine/Receiver.lean ====
section
/-! DEFINITION. The Frame Receiver and the Timeout Arbiter: `RX_BYTE`, `RX_TIMEOUT` (41_frame_receiver.md). -/

namespace Sys2Proof.Machine

/-- A byte that finds a frame pending supersedes it: the slot is cleared, the loss marked (R151). -/
def supersede (s : State) : State :=
  { s with pendingLen := 0, lostFlag := s.lostFlag || s.pendingLen ≠ 0 }

/-- Advance the write offset; at `BUF_SIZE` wrap it and set the overflow flag (R152). -/
def advanceRx (s : State) : State :=
  { s with
    rxOffset := if wrapsNow s then 0 else s.rxOffset + 1
    overflowFlag := s.overflowFlag || wrapsNow s }

/-- (Re)start the idle timer (R153). -/
def restartTimer (s : State) : State := emit .timerRestart { s with timerArmed := true }

/-- The effect of `RX_BYTE(b)` (R150); none while reception is suspended (R154). -/
def receiveByte (b : Byte) (s : State) : Except Fault State :=
  if s.rxEnable then
    match writeByte (supersede s) .rx s.rxOffset b with
    | .error e => .error e
    | .ok s' => .ok (restartTimer (advanceRx s'))
  else .ok s

/-- `RX_BYTE(b)` (R150). -/
def execRxByte (b : Byte) (s : State) : Host.Outcome State Fault Refusal :=
  perform (enabledWhen (.rxByte b) s) s (receiveByte b)

/-- Disarm the one-shot timer and flush the deferred counters (R155, R157). The overflow flag itself is
cleared by `rearm`. -/
def flushDeferred (s : State) : State :=
  let s1 := raiseWhen s.lostFlag .packetLost { s with timerArmed := false }
  raiseWhen s1.overflowFlag .bufferOverflow { s1 with lostFlag := false }

/-- Accept the frame: hand its length over and suppress the heartbeat (R156). -/
def acceptFrame (s : State) : State := { s with pendingLen := s.rxOffset, heartbeatSuppress := true }

/-- The acceptance test and its effect (R155, R156). The leading address is read only when the length test
holds. -/
def judgeFrame (s : State) : Except Fault State :=
  if lengthAccepted s then
    match memRead s .rx 0 s.cfg.addrLen with
    | .error e => .error e
    | .ok field =>
      if addressAccepted s (addrOf field) then .ok (acceptFrame s)
      else .ok (raiseError .addressMismatch s)
  else .ok s

/-- Prepare for the next frame, accepted or not (R158). -/
def rearm (s : State) : State := { s with rxOffset := 0, overflowFlag := false }

/-- The effect of `RX_TIMEOUT` (R155). -/
def endBurst (s : State) : Except Fault State :=
  match judgeFrame (flushDeferred s) with
  | .error e => .error e
  | .ok s' => .ok (rearm s')

/-- `RX_TIMEOUT` (R155). -/
def execRxTimeout (s : State) : Host.Outcome State Fault Refusal :=
  perform (enabledWhen .rxTimeout s) s endBurst

end Sys2Proof.Machine
end

