-- ==== Sys2Proof/Machine/Reset.lean ====
section
/-! DEFINITION. `RESET` (70_reset_and_hazards.md R350 to R352). -/

namespace Sys2Proof.Machine

/-- The device after `RESET`: the reset state of its configuration with an empty trace; what belongs to the
environment (stimulus, application answers) is not the device's and stays (R350, R351; log 12). -/
def resetDevice (s : State) : State :=
  { State.initial s.cfg with
    stimulus := s.stimulus
    appAnswers := s.appAnswers
    appCalls := s.appCalls }

/-- `RESET`: always enabled, marked or not (R350); a configuration that violates a constraint is refused (R352). -/
def execReset (s : State) : Host.Outcome State Fault Refusal :=
  if s.cfg.Valid then .next (resetDevice s) else .refused .badConfiguration

end Sys2Proof.Machine
end

