-- ==== Sys2Proof/Machine/Dispatch.lean ====
section
/-! DEFINITION. One arm per instruction, each a direct call of its meaning. -/

namespace Sys2Proof.Machine

/-- The meaning of one instruction. -/
def exec (i : Instr) (s : State) : Host.Outcome State Fault Refusal :=
  match i with
  | .reset => Sys2Proof.Machine.execReset s
  | .rxByte b => Sys2Proof.Machine.execRxByte b s
  | .rxTimeout => Sys2Proof.Machine.execRxTimeout s
  | .pePoll => Sys2Proof.Machine.execPePoll s
  | .peSuspendRx => Sys2Proof.Machine.execPeSuspendRx s
  | .peVerify => Sys2Proof.Machine.execPeVerify s
  | .peDispatch => Sys2Proof.Machine.execPeDispatch s
  | .txReady => Sys2Proof.Machine.execTxReady s
  | .txComplete => Sys2Proof.Machine.execTxComplete s
  | .tick => Sys2Proof.Machine.execTick s
  | .ping => Sys2Proof.Machine.execPing s
  | .deviceInfo => Sys2Proof.Machine.execDeviceInfo s
  | .getName => Sys2Proof.Machine.execGetName s
  | .getUptime => Sys2Proof.Machine.execGetUptime s
  | .getVersion => Sys2Proof.Machine.execGetVersion s
  | .getCountCorrect => Sys2Proof.Machine.execGetCountCorrect s
  | .getCountOverflow => Sys2Proof.Machine.execGetCountOverflow s
  | .getCountLost => Sys2Proof.Machine.execGetCountLost s
  | .getCountMismatch => Sys2Proof.Machine.execGetCountMismatch s
  | .getCountAll => Sys2Proof.Machine.execGetCountAll s
  | .resetCounts => Sys2Proof.Machine.execResetCounts s
  | .getUuid => Sys2Proof.Machine.execGetUuid s
  | .getExtendedInfo => Sys2Proof.Machine.execGetExtendedInfo s
  | .baseReserved2 code => Sys2Proof.Machine.execBaseReserved2 code s
  | .baseReservedN rest => Sys2Proof.Machine.execBaseReservedN rest s
  | .appRequest p => Sys2Proof.Machine.execAppRequest p s
  | .bcLegacy => Sys2Proof.Machine.execBcLegacy s
  | .bcApp rest => Sys2Proof.Machine.execBcApp rest s
  | .bcUuidRequest => Sys2Proof.Machine.execBcUuidRequest s
  | .bcUuidPing => Sys2Proof.Machine.execBcUuidPing s
  | .bcUuidGetAddress => Sys2Proof.Machine.execBcUuidGetAddress s
  | .bcUuidResetAddress => Sys2Proof.Machine.execBcUuidResetAddress s
  | .bcUuidSetAddress a => Sys2Proof.Machine.execBcUuidSetAddress a s
  | .bcUuidReserved rest => Sys2Proof.Machine.execBcUuidReserved rest s
  | .bcEnableNeighbours => Sys2Proof.Machine.execBcEnableNeighbours s
  | .bcDisableNeighbours => Sys2Proof.Machine.execBcDisableNeighbours s
  | .bcResetAllAddresses => Sys2Proof.Machine.execBcResetAllAddresses s
  | .bcBusAssert m bytes => Sys2Proof.Machine.execBcBusAssert m bytes s
  | .bcReserved p => Sys2Proof.Machine.execBcReserved p s

end Sys2Proof.Machine
end

