-- ==== Sys2Proof/Machine/Fetch.lean ====
section
/-! DEFINITION. How the next instruction reaches the device: reading an event code off the stimulus (30_encoding.md R130),
and placing an instruction's bits where the next step finds them. -/

namespace Sys2Proof.Machine

/-- The next operation of the stimulus and what follows it (R130; log 2). -/
def fetch (s : State) : Except DecodeError (Instr × State) :=
  match decodeEvent s.stimulus with
  | .error e => .error e
  | .ok (i, rest) => .ok (i, { s with stimulus := rest })

/-- An address other than the broadcast value, so that a frame with it is a unicast request (R176):
the device's own unless that is the broadcast value. -/
def unicastAddress (s : State) : Addr :=
  if s.myAddress ≠ s.cfg.broadcastAddr then s.myAddress
  else if s.cfg.broadcastAddr = 1 then 2 else 1

/-- The engine about to dispatch frame `f`: the frame in `RX`, latched and verified, reception suspended, and
`PE_DISPATCH` offered next. -/
def placeFrame (f : List Byte) (s : State) : State :=
  { s with
    rx := Memory.writeAll s.rx 0 f
    peLen := f.length
    pePhase := .dispatch
    rxEnable := false
    stimulus := [0x6] }

/-- The transmitter about to hand over the first byte of an empty reply (R270). -/
def placeReply (s : State) : State :=
  let f := replyFrame s.cfg s.myAddress []
  { s with
    tx := Memory.writeAll s.tx 0 f
    txLen := f.length
    txOffset := 0
    rxEnable := false
    lineDrive := true
    txReadyEn := true
    txCompleteEn := false }

/-- Make the operation of an event code enabled, so that offering it is a step (R12; log 10). -/
def placeEnabling (i : Instr) (s : State) : State :=
  match i with
  | .rxTimeout => { s with timerArmed := true }
  | .pePoll => { s with pePhase := .idle }
  | .peSuspendRx => { s with pePhase := .latched }
  | .peVerify => { s with pePhase := .verify }
  | .peDispatch => placeFrame (frameBytes s.cfg (unicastAddress s) []) s
  | .txReady => placeReply s
  | .txComplete =>
    let s1 := placeReply s
    { s1 with txOffset := s1.txLen, txReadyEn := false, txCompleteEn := true }
  | .reset | .rxByte _ | .tick | .ping | .deviceInfo | .getName | .getUptime | .getVersion
  | .getCountCorrect | .getCountOverflow | .getCountLost | .getCountMismatch | .getCountAll
  | .resetCounts | .getUuid | .getExtendedInfo | .baseReserved2 _ | .baseReservedN _ | .appRequest _
  | .bcLegacy | .bcApp _ | .bcUuidRequest | .bcUuidPing | .bcUuidGetAddress | .bcUuidResetAddress
  | .bcUuidSetAddress _ | .bcUuidReserved _ | .bcEnableNeighbours | .bcDisableNeighbours
  | .bcResetAllAddresses | .bcBusAssert _ _ | .bcReserved _ => s

/-- Place an instruction's bits where the next step finds them (log 10): an event code at the head of the stimulus,
its operation enabled; a payload as the frame that `PE_DISPATCH` is about to dispatch. -/
def placeWire (w : Wire) (s : State) : State :=
  match w with
  | .event digits =>
    let s1 := match decodeEvent digits with
      | .ok (i, _) => placeEnabling i s
      | .error _ => s
    { s1 with stimulus := digits }
  | .unicast p => placeFrame (frameBytes s.cfg (unicastAddress s) p) s
  | .broadcast p => placeFrame (frameBytes s.cfg s.cfg.broadcastAddr p) s

end Sys2Proof.Machine
end

