-- ==== Sys2Proof/Machine/Step.lean ====
section
/-! DEFINITION. One step of the machine: the next operation of the stimulus, performed. -/

namespace Sys2Proof.Machine

/-- One step: with no event offered the device waits (R350, R373; log 3); otherwise the next event code is read
and its operation performed (R12, R130; log 2). -/
def step (s : State) : Host.Outcome State Fault Refusal :=
  match s.stimulus with
  | [] => .next s
  | _ :: _ =>
    match fetch s with
    | .error e => .refused (.undecodable e)
    | .ok (i, s') => exec i s'

/-- The state in which the next step runs the instruction of an opcode-table word (log 10). -/
def State.withFetchWord (s : State) (nbits w : Nat) : State := placeWire (tableWire nbits w) s

end Sys2Proof.Machine
end

