-- ==== Sys2Proof/Machine/Bus.lean ====
section
/-! DEFINITION. Several devices on one line (60_exceptions.md R322): how a line is made, which devices hear which bytes, what
a collision does, the wired-OR of the bus assertions, and the search of R257 (c) the master runs with it. One device's step
uses none of this (log 16). -/

namespace Sys2Proof.Machine

/-- The devices of a line, numbered from the master outward (R322 (d), decision D38). -/
abbrev Devices := List State

/-- The bus-wide parameters are equal on all devices of the line (R322). -/
abbrev SameBus (ds : Devices) : Prop := ∀ d ∈ ds, ∀ e ∈ ds, d.cfg.busParameters = e.cfg.busParameters

/-- A line of devices right after reset; configurations that are illegal, or whose bus-wide parameters differ, make no
line (R322, R352). -/
def powerUp (cs : List Config) : Option Devices :=
  if (∀ c ∈ cs, c.Valid) ∧ SameBus (cs.map State.initial) then some (cs.map State.initial) else none

/-- Apply a function with each device's number, counting from `k`. -/
def mapNumbered (f : Nat → State → State) (k : Nat) : Devices → Devices
  | [] => []
  | d :: ds => f k d :: mapNumbered f (k + 1) ds

/-- The devices numbered `i` to `j - 1` all pass the bus through. -/
def segmentsOpen (ds : Devices) (i j : Nat) : Bool := ((ds.take j).drop i).all (fun d => d.segmentEnable)

/-- Devices `i` and `j` are on one stretch of the line: a device that cuts its segment off disconnects everything behind
it, in both directions (R322 (d)). -/
def connected (ds : Devices) (i j : Nat) : Bool := segmentsOpen ds (min i j) (max i j)

/-- Who puts a byte on the line (R322 (a)). -/
inductive Talker where
  | master
  | device (k : Nat)
deriving DecidableEq, Repr

/-- The talker's bytes reach device `j`: the master's every device whose nearer devices all pass through, a device's
every other device on its stretch (R322 (a), (d)). -/
def reaches (ds : Devices) (talker : Talker) (j : Nat) : Bool :=
  match talker with
  | .master => segmentsOpen ds 0 j
  | .device k => j ≠ k && connected ds k j

/-- Device `i` of the line claims it. -/
def drives (ds : Devices) (i : Nat) : Bool := (ds[i]?).any (fun d => d.lineDrive)

/-- A collision on device `j`'s stretch: beside the talker some device there drives the line (R322 (b)).
DESIGN CHOICE, log 16, unsafe: the spec speaks of devices that drive the line and leaves the master open. Here the master's
own byte meets a collision with a device that drives the line, and a device's `TxByte` meets none with the master, whose
sending is no state of the model: it is heard intact unless another device drives the line. -/
def contended (ds : Devices) (talker : Talker) (j : Nat) : Bool :=
  (List.range ds.length).any (fun i => talker ≠ .device i && drives ds i && connected ds i j)

/-- A device is offered one byte; a device with no step for it (its fault mark is set) stays as it is (R322 (a)). -/
def hearByte (b : Byte) (d : State) : State :=
  match exec (.rxByte b) d with
  | .next d' => d'
  | .fault _ => d
  | .refused _ => d

/-- A device is offered some bytes in order. -/
def hearBytes (bs : List Byte) (d : State) : State := bs.foldl (fun d b => hearByte b d) d

/-- A byte put on the line: every device it reaches hears it, or, in a collision on that device's stretch, bytes of the
environment's choice, `heard j` at device `j`: any bytes, any number (R322 (a), (b), 93_implementation_defined.md U10). -/
def putByte (heard : Nat → List Byte) (talker : Talker) (b : Byte) (ds : Devices) : Devices :=
  mapNumbered
    (fun j d =>
      if reaches ds talker j then hearBytes (if contended ds talker j then heard j else [b]) d
      else d)
    0 ds

/-- A byte from the master (R322 (a)). -/
def masterSends (heard : Nat → List Byte) (b : Byte) (ds : Devices) : Devices := putByte heard .master b ds

/-- During and after a bus assertion each device may hear bytes of the environment's choice (93_implementation_defined.md
U9). -/
def lineGarbled (heard : Nat → List Byte) (ds : Devices) : Devices :=
  mapNumbered (fun j d => hearBytes (heard j) d) 0 ds

/-- The events a device emitted between two of its states. -/
def emittedEvents (before after : State) : List OutEvent := after.trace.drop before.trace.length

/-- The bytes a device handed over between two of its states: its `TxByte` events, in order (R14). -/
def emittedBytes (before after : State) : List Byte :=
  (emittedEvents before after).filterMap fun e =>
    match e with
    | .txByte b => some b
    | .lineDrive _ | .rxEnable _ | .timerRestart | .busAssert | .segment _ | .heartbeatToggle
    | .appRequest _ | .appBroadcast _ _ => none

/-- The operation is offered by the line, not by a device's own agents (R322 (a)). -/
def fromLine (i : Instr) : Bool :=
  match i with
  | .rxByte _ => true
  | .reset | .rxTimeout | .pePoll | .peSuspendRx | .peVerify | .peDispatch | .txReady | .txComplete
  | .tick | .ping | .deviceInfo | .getName | .getUptime | .getVersion | .getCountCorrect
  | .getCountOverflow | .getCountLost | .getCountMismatch | .getCountAll | .resetCounts | .getUuid
  | .getExtendedInfo | .baseReserved2 _ | .baseReservedN _ | .appRequest _ | .bcLegacy | .bcApp _
  | .bcUuidRequest | .bcUuidPing | .bcUuidGetAddress | .bcUuidResetAddress | .bcUuidSetAddress _
  | .bcUuidReserved _ | .bcEnableNeighbours | .bcDisableNeighbours | .bcResetAllAddresses
  | .bcBusAssert _ _ | .bcReserved _ => false

/-- Device `k` performs an operation of its own, and the bytes it hands over by `TxByte` are put on the line; with no
step there, or for a byte, which only the line offers, nothing happens (R322 (a)). That no byte of the master meets them
is the model's choice (DESIGN CHOICE, log 16). -/
def deviceOperates (heard : Nat → List Byte) (k : Nat) (i : Instr) (ds : Devices) : Devices :=
  match ds[k]? with
  | none => ds
  | some d =>
    match exec i d with
    | .next d' =>
      if fromLine i then ds
      else (emittedBytes d d').foldl (fun ds b => putByte heard (.device k) b ds) (ds.set k d')
    | .fault _ => ds
    | .refused _ => ds

/-- What happens on a line: the master sends a byte, a device performs an operation, an assertion garbles the line. -/
inductive BusEvent where
  | masterByte (b : Byte)
  | operation (k : Nat) (i : Instr)
  | assertionNoise
deriving DecidableEq, Repr

/-- One event of a line; `heard` is what the environment chooses where the line is garbled (R322). -/
def busStep (heard : Nat → List Byte) (e : BusEvent) (ds : Devices) : Devices :=
  match e with
  | .masterByte b => masterSends heard b ds
  | .operation k i => deviceOperates heard k i ds
  | .assertionNoise => lineGarbled heard ds

/-- A device emitted `BusAssert` between two of its states. -/
def emittedAssert (before after : State) : Bool := .busAssert ∈ emittedEvents before after

/-- The wired-OR: the one bit the master observes for a bus-assertion request, over the devices before and after
handling it (R322 (c)). -/
def asserted (before after : Devices) : Bool := (before.zip after).any (fun d => emittedAssert d.1 d.2)

/-- Some device's UUID matches a bus-assertion request (R252, R322 (c)). -/
def anyMatches (m : Byte) (bytes : List Byte) (ds : Devices) : Bool :=
  ds.any (fun d => maskLengthOk m && assertMatches d.uuid m bytes)

/-- The search of R257 (c) after `k` bits, `ds` being the devices that hear the requests: extend the pattern by one bit,
keeping 0 if some device asserts for it and taking 1 otherwise (one request for each bit: log 16). -/
def searchUuid (ds : Devices) : Nat → Nat
  | 0 => 0
  | k + 1 =>
    if anyMatches (BitVec.ofNat 8 (k + 1)) (le (searchUuid ds k) 4) ds then searchUuid ds k
    else searchUuid ds k + 2 ^ k

end Sys2Proof.Machine
end

