-- ==== Sys2Proof/Safety.lean ====
section
/-! DEFINITION. What claims about runs are stated in: the invariant of 10_state.md R50 with what R24, R48, R49, R156 and
R373 add to it, the discipline of R366, the rest state, and the shapes of the result of `PE_DISPATCH`. -/

namespace Sys2Proof.Machine

/-- The first `n` bytes of a buffer have been written since reset. -/
def Written (m : Memory) (n : Nat) : Prop := ∀ j < n, (m.read j).isSome = true

/-- The invariant of every operation boundary (R50), with the range of `pe_len` (R24), the link of the timer to the
slot (R156) and to the deferred marks (R373), the canonical form of the buffers, and what has been written of
them (R48, R49). -/
structure Inv (s : State) : Prop where
  cfg_valid : s.cfg.Valid
  /-- R50 (i). -/
  rxOffset_lt : s.rxOffset < s.cfg.bufSize
  /-- R50 (ii). -/
  pendingLen_range : s.pendingLen = 0 ∨ (2 ≤ s.pendingLen ∧ s.pendingLen < s.cfg.bufSize)
  /-- R50 (iv). -/
  enables_exclusive : s.txState ≠ .bothEnabled
  /-- R50 (v). -/
  lineDrive_iff : s.lineDrive = true ↔ s.txState ≠ .idle
  /-- R50 (vi). -/
  sending_range : s.txState = .sending → s.txOffset < s.txLen ∧ s.txLen ≤ s.cfg.bufSize
  /-- R50 (vii). -/
  myAddress_lt : s.myAddress < s.cfg.masterAddr
  peLen_lt : s.peLen < s.cfg.bufSize
  latched_two : s.pePhase ≠ .idle → 2 ≤ s.peLen
  dispatch_room : s.pePhase = .dispatch → s.cfg.addrLen + s.cfg.csumLen ≤ s.peLen
  hbDiv_lt : s.hbDiv < s.cfg.heartbeatDiv
  armed_empty : s.timerArmed = true → s.pendingLen = 0
  unarmed_clear : s.timerArmed = false → s.rxOffset = 0 ∧ s.lostFlag = false ∧ s.overflowFlag = false
  rx_wf : s.rx.wf
  tx_wf : s.tx.wf
  rx_inside : ∀ c ∈ s.rx, c.1 < s.cfg.bufSize
  tx_inside : ∀ c ∈ s.tx, c.1 < s.cfg.bufSize
  rx_written : Written s.rx s.rxOffset
  rx_full : s.overflowFlag = true → Written s.rx s.cfg.bufSize
  rx_pending : Written s.rx s.pendingLen
  rx_latched : s.pePhase ≠ .idle → Written s.rx s.peLen
  tx_written : s.txState = .sending → Written s.tx s.txLen

/-- The discipline the master keeps by R361: the engine works on no frame while a reply is leaving, and reception
is suspended while it verifies and dispatches (R50, last sentence; R366). -/
structure Disciplined (s : State) : Prop where
  engine_alone : s.pePhase ≠ .idle → s.txState = .idle
  suspended : s.pePhase = .verify ∨ s.pePhase = .dispatch → s.rxEnable = false

/-- Half-duplex exclusivity: reception is suspended as long as a reply is leaving (R276). -/
def HalfDuplex (s : State) : Prop := s.txState ≠ .idle → s.rxEnable = false

/-- The instructions that dispatch a frame: `PE_DISPATCH`, and every frame command (log 8), which is to say every
instruction whose encoding is a payload and no event code. -/
def Dispatches (i : Instr) : Prop := i = .peDispatch ∨ ∀ (c : Config) (ds : List Digit), encode c i ≠ .event ds

/-- The rest state (R373). -/
def AtRest (s : State) : Prop :=
  s.fault = none ∧ s.pePhase = .idle ∧ s.txState = .idle ∧ s.pendingLen = 0 ∧ s.timerArmed = false ∧
    s.rxEnable = true ∧ s.lineDrive = false

/-- `PE_DISPATCH` is enabled and not marked (R12, R51). -/
def Dispatching (s : State) : Prop := s.fault = none ∧ s.pePhase = .dispatch

/-- `PE_DISPATCH` is enabled and the transmitter is free, under a legal configuration. -/
def ReadyToReply (s : State) : Prop := Dispatching s ∧ s.txState = .idle ∧ s.cfg.Valid

/-- The state after `PE_DISPATCH` with a no-answer result, `s` being the state the handler left: reception resumed,
engine idle, nothing else changed (R175, R178). -/
def resumed (s : State) : State :=
  { s with
    rxEnable := true
    pePhase := .idle
    trace := s.trace ++ (if s.rxEnable = true then [] else [.rxEnable true]) }

/-- `t` is the state after `PE_DISPATCH` with a reply whose whole frame is `f`, `s` being the state the handler left:
the frame lies in `TX` from index 0, every other byte of `TX` is as before, reception is suspended, the line
claimed, the send-ready notification enabled, the engine idle, nothing else changed (R175, R270). -/
def Replies (s t : State) (f : List Byte) : Prop :=
  t = { s with
        tx := t.tx
        txLen := f.length
        txOffset := 0
        rxEnable := false
        lineDrive := true
        txReadyEn := true
        pePhase := .idle
        trace := s.trace ++ (if s.rxEnable = true then [.rxEnable false] else []) ++ [.lineDrive true] } ∧
    ∀ j, t.tx.read j = if j < f.length then f[j]? else s.tx.read j

/-- A buffer holds the bytes `bs` from index `a` on. -/
def Holds (m : Memory) (a : Nat) (bs : List Byte) : Prop := ∀ k < bs.length, m.read (a + k) = bs[k]?

/-- What the application request handler answers to payload `p` in state `s`: the environment's next answer, or the
free value when it has supplied none (R215; log 11). -/
def applicationAnswer (s : State) (p : List Byte) : Result :=
  match s.appAnswers with
  | r :: _ => r
  | [] => Config.appAnswer s.appCalls p

/-- The state after the application request handler was called with payload `p` (R215; log 11). -/
def afterApplication (s : State) (p : List Byte) : State :=
  { s with
    trace := s.trace ++ [.appRequest p]
    appAnswers := s.appAnswers.tail
    appCalls := if s.appAnswers = [] then s.appCalls + 1 else s.appCalls }

/-- Perform a sequence of operations; it stops at the first that gives no next state. -/
def performAll : List Instr → State → Host.Outcome State Fault Refusal
  | [], s => .next s
  | i :: rest, s =>
    match exec i s with
    | .next s' => performAll rest s'
    | .fault f => .fault f
    | .refused r => .refused r

/-- The operations that deliver a burst of bytes and then the idle gap (R105). -/
def burst (f : List Byte) : List Instr := f.map .rxByte ++ [.rxTimeout]

/-- The operations of the preemptive context (R316). -/
def Preemptive (i : Instr) : Prop :=
  (∃ b, i = .rxByte b) ∨ i = .rxTimeout ∨ i = .txReady ∨ i = .txComplete ∨ i = .tick

end Sys2Proof.Machine
end

