-- ==== Sys2Proof/Certificates/Slice0/Obligations.lean ====
section
/-! DEFINITION. The statements about the machine, for the provers. Each docstring names the rules of spec/ it rests on. -/

open Sys2Proof Sys2Proof.Machine

/-- Decoding the encoding of a well-formed instruction gives the instruction back, for every legal configuration and
all 39 instructions (R108 to R112, R130). -/
def Obligations.DecodeOfEncode : Prop :=
  ∀ c : Config, c.Valid → ∀ i, WellFormed c i → decode c (encode c i) = .ok i

/-- Every payload is the encoding of the command it decodes to, so decoding drops no byte (R108 to R112). -/
def Obligations.EncodeOfDecode : Prop :=
  ∀ c : Config, c.Valid → ∀ p : List Byte,
    encode c (decodeRequest c p) = .unicast p ∧ encode c (decodeBroadcast c p) = .broadcast p

/-- Every payload short enough to be received decodes to a well-formed command, in both frame classes (R102, R112). -/
def Obligations.DecodedCommandsWellFormed : Prop :=
  ∀ c : Config, c.Valid → ∀ p : List Byte, p.length + c.addrLen + c.csumLen ≤ c.bufSize - 1 →
    WellFormed c (decodeRequest c p) ∧ WellFormed c (decodeBroadcast c p)

/-- An operation's event code at the head of a digit stream is read back, and exactly its digits are used up (R130). -/
def Obligations.EventStreamParses : Prop :=
  ∀ (c : Config) (i : Instr) (ds rest : List Digit), encode c i = .event ds →
    decodeEvent (ds ++ rest) = .ok (i, rest)

/-- The codes 1010 to 1111 are read as no operation, whatever follows (R130). The refusal is the model's choice, log 14. -/
def Obligations.UnusedEventCodesRefused : Prop :=
  ∀ (d : Digit) (rest : List Digit), 10 ≤ d.toNat → decodeEvent (d :: rest) = .error (.unusedCode d)

/-- Words written out from the spec's encodings decode to their instructions under CFG0 (R108 to R110, R130). -/
def Obligations.SampleWordsDecode : Prop :=
  decode .cfg0 (.event [0b0001, 0b1001, 0b0111]) = .ok (.rxByte 0x97) ∧
  decode .cfg0 (.event [0b0110]) = .ok .peDispatch ∧
  decode .cfg0 (.unicast [0x00, 0x0A]) = .ok .getExtendedInfo ∧
  decode .cfg0 (.unicast [0x10, 0x01]) = .ok (.appRequest [0x10, 0x01]) ∧
  decode .cfg0 (.broadcast [0x00, 0x00, 0x78, 0x56, 0x34, 0x12, 0x00, 0x07]) = .ok (.bcUuidSetAddress 0x07) ∧
  decode .cfg0 (.broadcast [0x00, 0x04, 0x08, 0x78]) = .ok (.bcBusAssert 0x08 [0x78])

/-- A UUID-addressed broadcast whose four UUID bytes are not the device's own is `BC_UUID_RESERVED`, whatever follows
them (R245, R246). -/
def Obligations.ForeignUuidIsReserved : Prop :=
  ∀ c : Config, c.Valid → ∀ u rest : List Byte, u.length = 4 → u ≠ le c.uuid.toNat 4 →
    decodeBroadcast c ([c.allDevices, c.subUuid] ++ u ++ rest) = .bcUuidReserved (u ++ rest)

/-- A step performs the operation that the next digits of the stimulus decode to, with those digits taken off and nothing
else changed; with no stimulus it leaves the state as it is (the model's choices, log 2 and log 3; R12, R80). -/
def Obligations.StepRunsDecodedInstruction : Prop :=
  ∀ s : State,
    (s.stimulus = [] → step s = .next s) ∧
    (∀ i rest, decodeEvent s.stimulus = .ok (i, rest) → step s = exec i { s with stimulus := rest })

/-- `PE_DISPATCH` does exactly what the frame command does that the frame in `RX` decodes to by the pattern tables: the
two dispatch listings of the spec (R199, R230) and its tables (R108 to R110) agree, for every address and payload. The
frame command as an instruction is the model's choice, log 8. -/
def Obligations.DispatchRunsDecodedCommand : Prop :=
  ∀ (s : State) (a : Addr) (p : List Byte), s.cfg.Valid → latchedFrame s = .ok (a, p) →
    exec .peDispatch s = exec (commandOf s.cfg a p) s

/-- The verify function compares the last byte with the checksum of the bytes before it and refuses a frame with no room
for address and checksum (R144). -/
def Obligations.VerifyComparesLastByte : Prop :=
  ∀ c : Config, c.Valid → csumOk c [] = false ∧
    ∀ (f : List Byte) (x : Byte), csumOk c (f ++ [x]) = true ↔ (c.addrLen ≤ f.length ∧ csum c f = x)

/-- A frame with its checksum appended verifies, for both algorithms (R103, R144, R145). -/
def Obligations.AppendedChecksumVerifies : Prop :=
  ∀ c : Config, c.Valid → ∀ (a : Addr) (p : List Byte), csumOk c (frameBytes c a p) = true

/-- Both checksums leave 0 when the checksum byte is appended (R141, R142). -/
def Obligations.ChecksumResidueIsZero : Prop :=
  ∀ (c : Config) (s : List Byte), xor8 (s ++ [xor8 s]) = 0 ∧ crc8 c (s ++ [crc8 c s]) = 0

/-- An error confined to one byte, hence any single-bit error, changes the checksum: always for XOR, and for CRC8 with a
polynomial whose constant term is 1, as the default 0x1D (R147). -/
def Obligations.OneByteErrorDetected : Prop :=
  ∀ c : Config, (c.csumKind = .xor ∨ c.crc8Poly.getLsbD 0 = true) →
    ∀ (front back : List Byte) (b b' : Byte), b ≠ b' →
      csum c (front ++ b :: back) ≠ csum c (front ++ b' :: back)

/-- `RESET` under a legal configuration always answers a next state, marked or not, with every register at the value R350
gives and an empty trace. -/
def Obligations.ResetEffect : Prop :=
  ∀ s : State, s.cfg.Valid → ∃ t, exec .reset s = .next t ∧
    t.rxOffset = 0 ∧ t.txLen = 0 ∧ t.txOffset = 0 ∧ t.peLen = 0 ∧ t.hbDiv = 0 ∧ t.pePhase = .idle ∧
    t.txReadyEn = false ∧ t.txCompleteEn = false ∧ t.overflowFlag = false ∧ t.lostFlag = false ∧
    t.heartbeatSuppress = false ∧ t.timerArmed = false ∧ t.pendingLen = 0 ∧
    t.myAddress = s.cfg.initialAddress ∧ t.cntCorrect = 0 ∧ t.cntOverflow = 0 ∧ t.cntLost = 0 ∧
    t.cntMismatch = 0 ∧ t.uptime = 0 ∧ t.rxEnable = true ∧ t.lineDrive = false ∧
    t.segmentEnable = s.cfg.segmentEnableReset ∧ t.heartbeat = false ∧ t.fault = none ∧ t.trace = [] ∧
    t.cfg = s.cfg

/-- A configuration that violates a constraint has no run: `RESET` refuses it (R352). Where the refusal is raised is the
model's choice, log 18. -/
def Obligations.BadConfigurationRefused : Prop :=
  ∀ s : State, ¬ s.cfg.Valid → exec .reset s = .refused .badConfiguration

/-- The machine's reset state satisfies the invariant and is at rest; its configuration is the model's choice CFG0, log 1
(R50, R62, R373). -/
def Obligations.ResetSatisfiesInv : Prop := Inv State.reset ∧ AtRest State.reset

/-- Every step keeps the invariant, from every state that has it (R50, with R24, R48, R49, R156, R373). -/
def Obligations.StepKeepsInv : Prop :=
  ∀ s t : State, Inv s → step s = .next t → Inv t

/-- In a state with the invariant no step reads a byte that was not written since reset, nor accesses a buffer out of
bounds: the only faults are an operation that is not enabled and a marked device (R48, R49, R76). The faults
are the model's form of what has no step or no value, log 4 to log 7. -/
def Obligations.InvExcludesAccessFaults : Prop :=
  ∀ (s : State) (f : Fault), Inv s → step s = .fault f → f = .notEnabled ∨ ∃ m, f = .marked m

/-- The discipline of R361 is kept by every step but a `PE_POLL` that takes a frame while a reply is leaving (a poll that
finds nothing is no such step); that reception is suspended in `PE_VERIFY` and `PE_DISPATCH` is then an invariant, and so
is half-duplex exclusivity (R50, R276, R366). A device at rest meets both. -/
def Obligations.StepKeepsDiscipline : Prop :=
  ∀ s t : State, Inv s → Disciplined s →
    (∀ rest, decodeEvent s.stimulus = .ok (.pePoll, rest) → s.pendingLen ≠ 0 → s.txState = .idle) →
    step s = .next t → Disciplined t ∧ (HalfDuplex s → HalfDuplex t)

/-- Under the discipline no step sets the mark `TxOverlap` (R273, R366). -/
def Obligations.DisciplineExcludesOverlap : Prop :=
  ∀ s t : State, Disciplined s → s.fault ≠ some .txOverlap → step s = .next t → t.fault ≠ some .txOverlap

/-- The bus address changes only in `RESET` and in the dispatch of set-address, reset-address and reset-all-addresses,
be it the command as an instruction or `PE_DISPATCH` on a frame that decodes to it, and then to the value the command
gives (R33, R243, R244, R249; the command as an instruction is the model's choice, log 8). -/
def Obligations.AddressWriters : Prop :=
  ∀ (i : Instr) (s t : State), exec i s = .next t → t.myAddress ≠ s.myAddress →
    (i = .reset ∧ t.myAddress = s.cfg.initialAddress) ∨
    ∃ command : Instr,
      (i = command ∨
        (i = .peDispatch ∧ ∃ a p, latchedFrame s = .ok (a, p) ∧ command = commandOf s.cfg a p)) ∧
      ((command = .bcUuidResetAddress ∧ t.myAddress = 0) ∨
        (command = .bcResetAllAddresses ∧ t.myAddress = 0) ∨
        ∃ a, command = .bcUuidSetAddress a ∧ t.myAddress = a)

/-- `RX` changes only in `RX_BYTE` and `RESET`, and then `RX_BYTE` changes at most the byte at the write offset; `TX`
changes only in `RESET` and in the dispatch of a frame, through `TX_START`, which leaves every byte behind the reply frame
alone (R71, R78, R270; a frame command dispatches as `PE_DISPATCH` does, the model's choice, log 8). -/
def Obligations.BufferWriters : Prop :=
  ∀ (i : Instr) (s t : State), exec i s = .next t → i ≠ .reset →
    ((∀ b, i ≠ .rxByte b) → t.rx = s.rx) ∧
    (∀ j, j ≠ s.rxOffset → t.rx.read j = s.rx.read j) ∧
    (¬ Dispatches i → t.tx = s.tx) ∧
    (t.tx ≠ s.tx → ∃ u v r, u.tx = s.tx ∧ txStart r u = .ok v ∧ t = endDispatch v ∧
      ∀ j, t.tx.read j =
        if j < (replyFrame u.cfg u.myAddress r).length then (replyFrame u.cfg u.myAddress r)[j]? else s.tx.read j)

/-- What an operation of the preemptive context leaves alone (R26, R316). -/
def Obligations.PreemptiveFrame : Prop :=
  ∀ (i : Instr) (s t : State), Preemptive i → exec i s = .next t →
    t.pePhase = s.pePhase ∧ t.peLen = s.peLen ∧ t.myAddress = s.myAddress ∧
    t.segmentEnable = s.segmentEnable ∧ t.cntCorrect = s.cntCorrect ∧ t.cntMismatch = s.cntMismatch ∧
    t.tx = s.tx ∧ t.txLen = s.txLen ∧ t.fault = s.fault ∧ t.appAnswers = s.appAnswers ∧
    (s.heartbeatSuppress = true → t.heartbeatSuppress = true)

/-- What an operation of the cooperative context, or a frame command, leaves alone: everything the preemptive context owns,
but for clearing the slot, the heartbeat suppression and the counters (R316). -/
def Obligations.CooperativeFrame : Prop :=
  ∀ (i : Instr) (s t : State), ¬ Preemptive i → i ≠ .reset → exec i s = .next t →
    t.rx = s.rx ∧ t.rxOffset = s.rxOffset ∧ t.overflowFlag = s.overflowFlag ∧ t.lostFlag = s.lostFlag ∧
    t.timerArmed = s.timerArmed ∧ t.uptime = s.uptime ∧ t.hbDiv = s.hbDiv ∧ t.heartbeat = s.heartbeat ∧
    t.txCompleteEn = s.txCompleteEn ∧
    (t.pendingLen = s.pendingLen ∨ t.pendingLen = 0) ∧
    (t.heartbeatSuppress = s.heartbeatSuppress ∨ t.heartbeatSuppress = false) ∧
    (t.cntOverflow = s.cntOverflow ∨ t.cntOverflow = 0) ∧ (t.cntLost = s.cntLost ∨ t.cntLost = 0)

/-- Every operation but `RESET` only appends to the output trace (R14, R16). -/
def Obligations.TraceOnlyGrows : Prop :=
  ∀ (i : Instr) (s t : State), exec i s = .next t → i ≠ .reset → ∃ events, t.trace = s.trace ++ events

/-- No instruction changes the configuration, the UUID and the identity constants with it (R34, R44), nor the stimulus
still to come, which is the model's own field and which `RESET` keeps by the model's choice (log 2, log 12). -/
def Obligations.ConfigurationFixed : Prop :=
  ∀ (i : Instr) (s t : State), exec i s = .next t →
    t.cfg = s.cfg ∧ t.uuid = s.uuid ∧ t.stimulus = s.stimulus

/-- `RX_BYTE(b)`: no effect while reception is suspended; otherwise the byte is stored, a pending frame superseded, the
offset advanced and wrapped with the overflow flag, the timer restarted, and nothing else changed (R150). The write
offset is in its range (R21). -/
def Obligations.ReceiveByteEffect : Prop :=
  ∀ (b : Byte) (s : State), s.fault = none →
    (s.rxEnable = false → exec (.rxByte b) s = .next s) ∧
    (s.rxEnable = true → s.rxOffset < s.cfg.bufSize → ∃ t, exec (.rxByte b) s = .next t ∧
      t = { s with
            rx := t.rx
            pendingLen := 0
            lostFlag := s.lostFlag || s.pendingLen ≠ 0
            rxOffset := if s.rxOffset + 1 = s.cfg.bufSize then 0 else s.rxOffset + 1
            overflowFlag := s.overflowFlag || s.rxOffset + 1 = s.cfg.bufSize
            timerArmed := true
            trace := s.trace ++ [.timerRestart] } ∧
      ∀ j, t.rx.read j = if j = s.rxOffset then some b else s.rx.read j)

/-- `RX_TIMEOUT`: the deferred counters, the acceptance test and the re-arming; `field` is the leading address field of
`RX`, read only when there was no overflow and more than one byte (R155). -/
def Obligations.ReceiveTimeoutEffect : Prop :=
  ∀ (s : State) (field : List Byte), s.fault = none → s.timerArmed = true →
    (s.overflowFlag = false → 1 < s.rxOffset →
      field.length = s.cfg.addrLen ∧ s.cfg.addrLen ≤ s.cfg.bufSize ∧ Holds s.rx 0 field) →
    exec .rxTimeout s = .next
      { s with
        timerArmed := false
        cntLost := if s.lostFlag = true then s.cntLost + 1 else s.cntLost
        lostFlag := false
        cntOverflow := if s.overflowFlag = true then s.cntOverflow + 1 else s.cntOverflow
        pendingLen :=
          if s.overflowFlag = false ∧ 1 < s.rxOffset ∧
            (addrOf field = s.myAddress ∨ addrOf field = s.cfg.broadcastAddr) then s.rxOffset
          else s.pendingLen
        heartbeatSuppress :=
          if s.overflowFlag = false ∧ 1 < s.rxOffset ∧
            (addrOf field = s.myAddress ∨ addrOf field = s.cfg.broadcastAddr) then true
          else s.heartbeatSuppress
        rxOffset := 0
        overflowFlag := false }

/-- `PE_POLL`: nothing pending, nothing changes; otherwise the length is latched, the slot cleared, the heartbeat
re-enabled and the phase advanced (R171). -/
def Obligations.PollEffect : Prop :=
  ∀ s : State, s.fault = none → s.pePhase = .idle →
    (s.pendingLen = 0 → exec .pePoll s = .next s) ∧
    (s.pendingLen ≠ 0 → exec .pePoll s = .next
      { s with peLen := s.pendingLen, pendingLen := 0, heartbeatSuppress := false, pePhase := .latched })

/-- `PE_SUSPEND_RX`: reception is suspended, with the event only if it was enabled (R172). -/
def Obligations.SuspendEffect : Prop :=
  ∀ s : State, s.fault = none → s.pePhase = .latched →
    exec .peSuspendRx s = .next
      { s with
        rxEnable := false
        pePhase := .verify
        trace := s.trace ++ (if s.rxEnable = true then [.rxEnable false] else []) }

/-- `PE_VERIFY` on the frame `f` in `RX`: a match counts and goes on to dispatch; a mismatch counts, resumes reception and
runs no handler (R173). -/
def Obligations.VerifyEffect : Prop :=
  ∀ (s : State) (f : List Byte), s.fault = none → s.pePhase = .verify → f.length = s.peLen →
    s.peLen ≤ s.cfg.bufSize → Holds s.rx 0 f →
    (csumOk s.cfg f = true →
      exec .peVerify s = .next { s with cntCorrect := s.cntCorrect + 1, pePhase := .dispatch }) ∧
    (csumOk s.cfg f = false →
      exec .peVerify s = .next
        { s with
          cntMismatch := s.cntMismatch + 1
          rxEnable := true
          pePhase := .idle
          trace := s.trace ++ (if s.rxEnable = true then [] else [.rxEnable true]) })

/-- `PE_DISPATCH` on a frame with address field `field` and payload `p` in `RX`: exactly one of the two dispatchers runs,
on the payload stripped of address and checksum, and its result is handled; the engine returns to idle unless the
transmitter's start set the fault mark (R175). -/
def Obligations.DispatchEffect : Prop :=
  ∀ (s : State) (field p : List Byte), Dispatching s → s.cfg.Valid → field.length = s.cfg.addrLen →
    s.peLen = s.cfg.addrLen + p.length + s.cfg.csumLen → s.peLen ≤ s.cfg.bufSize → Holds s.rx 0 (field ++ p) →
    ∃ t, exec .peDispatch s = .next t ∧
      finishDispatch (if addrOf field = s.cfg.broadcastAddr then processBroadcast p s else processRequest p s)
        = .ok t ∧
      (t.fault = none → t.pePhase = .idle) ∧ (t.fault ≠ none → t.pePhase = .dispatch)

/-- `TX_READY`: exactly one byte is handed over; the last one switches to the transmission-complete notification (R274). -/
def Obligations.SendReadyEffect : Prop :=
  ∀ (s : State) (b : Byte), s.fault = none → s.txReadyEn = true → s.txOffset < s.cfg.bufSize →
    s.tx.read s.txOffset = some b →
    (s.txOffset + 1 ≠ s.txLen → exec .txReady s = .next
      { s with txOffset := s.txOffset + 1, trace := s.trace ++ [.txByte b] }) ∧
    (s.txOffset + 1 = s.txLen → exec .txReady s = .next
      { s with
        txOffset := s.txOffset + 1
        txReadyEn := false
        txCompleteEn := true
        trace := s.trace ++ [.txByte b] })

/-- `TX_COMPLETE`: the line is released, then reception resumes; the transmitter is idle afterwards, the send-ready
notification being disabled (R275). -/
def Obligations.SendCompleteEffect : Prop :=
  ∀ s : State, s.fault = none → s.txCompleteEn = true →
    ∃ t, exec .txComplete s = .next t ∧
      t = { s with
            txCompleteEn := false
            lineDrive := false
            rxEnable := true
            trace := s.trace ++ [.lineDrive false] ++ (if s.rxEnable = true then [] else [.rxEnable true]) } ∧
      (s.txReadyEn = false → t.txState = .idle)

/-- `TICK`: the uptime advances on every tick; a slot every `HEARTBEAT_DIV` ticks toggles the heartbeat unless suppressed
(R290). -/
def Obligations.TickEffect : Prop :=
  ∀ s : State, s.fault = none →
    (s.hbDiv + 1 < s.cfg.heartbeatDiv →
      exec .tick s = .next { s with uptime := s.uptime + 1, hbDiv := s.hbDiv + 1 }) ∧
    (s.cfg.heartbeatDiv ≤ s.hbDiv + 1 → s.heartbeatSuppress = true →
      exec .tick s = .next { s with uptime := s.uptime + 1, hbDiv := 0 }) ∧
    (s.cfg.heartbeatDiv ≤ s.hbDiv + 1 → s.heartbeatSuppress = false →
      exec .tick s = .next
        { s with
          uptime := s.uptime + 1
          hbDiv := 0
          heartbeat := !s.heartbeat
          trace := s.trace ++ [.heartbeatToggle] })

/-- The requests that answer constants reply with the layout their rules give, and change nothing else (R200, R201, R202,
R204, R211, R212). A command as an instruction, here and below, is the `PE_DISPATCH` step that dispatches it: the model's
choice, log 8. -/
def Obligations.IdentityReplies : Prop :=
  ∀ s : State, ReadyToReply s → ∀ e ∈ ([
      (.ping, []),
      (.deviceInfo, [s.cfg.protocolId, s.cfg.deviceTypeId, s.cfg.checksumTag] ++
        le (4 + s.cfg.name.length + s.cfg.version.length) 2 ++ le s.cfg.uuid.toNat 4 ++
        le s.cfg.uptimeFreq.toNat 2),
      (.getName, s.cfg.name),
      (.getVersion, s.cfg.version),
      (.getUuid, le s.cfg.uuid.toNat 4),
      (.getExtendedInfo, [BitVec.ofNat 8 s.cfg.name.length, BitVec.ofNat 8 s.cfg.version.length] ++
        le s.cfg.bufSize 2 ++ s.cfg.name ++ s.cfg.version)] : List (Instr × List Byte)),
    ∃ t, exec e.1 s = .next t ∧ Replies s t (replyFrame s.cfg s.myAddress e.2)

/-- The counter requests reply with the counters' values, little-endian, and change nothing else (R203, R205 to R209;
log 8). -/
def Obligations.CounterReplies : Prop :=
  ∀ s : State, ReadyToReply s → ∀ e ∈ ([
      (.getUptime, le s.uptime.toNat 4),
      (.getCountCorrect, le s.cntCorrect.toNat 4),
      (.getCountOverflow, le s.cntOverflow.toNat 4),
      (.getCountLost, le s.cntLost.toNat 4),
      (.getCountMismatch, le s.cntMismatch.toNat 4),
      (.getCountAll, le s.cntCorrect.toNat 4 ++ le s.cntOverflow.toNat 4 ++ le s.cntLost.toNat 4 ++
        le s.cntMismatch.toNat 4)] : List (Instr × List Byte)),
    ∃ t, exec e.1 s = .next t ∧ Replies s t (replyFrame s.cfg s.myAddress e.2)

/-- The counter reset clears the four packet counters and nothing else, and acknowledges with an empty reply (R210;
log 8). -/
def Obligations.CounterResetReply : Prop :=
  ∀ s : State, ReadyToReply s → ∃ t, exec .resetCounts s = .next t ∧
    Replies { s with cntCorrect := 0, cntOverflow := 0, cntLost := 0, cntMismatch := 0 } t
      (replyFrame s.cfg s.myAddress [])

/-- The UUID commands that answer without a state change: the anonymous request at an unassigned device, the ping, the
address readback; at a device with an address the anonymous request is not answered (R240, R241, R242; log 8). -/
def Obligations.UuidReplies : Prop :=
  ∀ s : State,
    (ReadyToReply s →
      (s.myAddress = 0 → ∃ t, exec .bcUuidRequest s = .next t ∧
        Replies s t (replyFrame s.cfg 0 (le s.cfg.uuid.toNat 4))) ∧
      (∃ t, exec .bcUuidPing s = .next t ∧ Replies s t (replyFrame s.cfg s.myAddress [])) ∧
      (∃ t, exec .bcUuidGetAddress s = .next t ∧
        Replies s t (replyFrame s.cfg s.myAddress (le s.myAddress.toNat s.cfg.addrLen)))) ∧
    (Dispatching s → s.myAddress ≠ 0 → exec .bcUuidRequest s = .next (resumed s))

/-- Set-address: a new address in the open interval (0, `MASTER_ADDR`) is assigned and acknowledged with 1 under the new
address; any other is refused with 0 and changes nothing (R244; log 8). -/
def Obligations.SetAddressReply : Prop :=
  ∀ (s : State) (a : Addr), ReadyToReply s →
    (0 < a.toNat ∧ a.toNat < s.cfg.masterAddr.toNat → ∃ t, exec (.bcUuidSetAddress a) s = .next t ∧
      Replies { s with myAddress := a } t (replyFrame s.cfg a [0x01])) ∧
    (¬ (0 < a.toNat ∧ a.toNat < s.cfg.masterAddr.toNat) → ∃ t, exec (.bcUuidSetAddress a) s = .next t ∧
      Replies s t (replyFrame s.cfg s.myAddress [0x00]))

/-- Reset-address clears the address and acknowledges under address 0 (R243; log 8). -/
def Obligations.ResetAddressReply : Prop :=
  ∀ s : State, ReadyToReply s → ∃ t, exec .bcUuidResetAddress s = .next t ∧
    Replies { s with myAddress := 0 } t (replyFrame s.cfg 0 [])

/-- The reserved commands of both frame classes answer nothing and change nothing but the end of the dispatch; so does an
application request with no handler registered (R213, R214, R215, R245, R258; log 8). -/
def Obligations.SilentCommands : Prop :=
  ∀ s : State, Dispatching s →
    (∀ code, exec (.baseReserved2 code) s = .next (resumed s)) ∧
    (∀ rest, exec (.baseReservedN rest) s = .next (resumed s)) ∧
    (∀ rest, exec (.bcUuidReserved rest) s = .next (resumed s)) ∧
    (∀ p, exec (.bcReserved p) s = .next (resumed s)) ∧
    (s.cfg.appRequestRegistered = false → ∀ p, exec (.appRequest p) s = .next (resumed s))

/-- An application request with a handler registered: the handler is called with the whole payload and its answer, whatever
it is, is sent if it fits (R215, R178). How its answer reaches the model is the model's choice, log 11; log 8. -/
def Obligations.AppRequestEffect : Prop :=
  ∀ (s : State) (p : List Byte), s.cfg.appRequestRegistered = true →
    (Dispatching s → applicationAnswer s p = .noAnswer →
      exec (.appRequest p) s = .next (resumed (afterApplication s p))) ∧
    (∀ r, ReadyToReply s → applicationAnswer s p = .reply r → r.length ≤ s.cfg.maxPayload →
      ∃ t, exec (.appRequest p) s = .next t ∧
        Replies (afterApplication s p) t (replyFrame s.cfg s.myAddress r))

/-- A reply longer than `MAX_PAYLOAD` sets the mark `ReplyTooLong` and nothing of the transmitter changes (R272;
log 8, log 11). -/
def Obligations.LongReplyMarks : Prop :=
  ∀ (s : State) (p r : List Byte), Dispatching s → s.cfg.appRequestRegistered = true →
    applicationAnswer s p = .reply r → s.cfg.maxPayload < r.length →
    exec (.appRequest p) s = .next { afterApplication s p with fault := some .replyTooLong }

/-- A reply while an earlier one is still leaving sets the mark `TxOverlap` and nothing of the transmitter changes; what the
handler did before stays. Every command that answers is covered, an application request with an answer that fits among
them (R273; log 8, log 11). -/
def Obligations.OverlapMarks : Prop :=
  ∀ s : State, Dispatching s → s.cfg.Valid → s.txState ≠ .idle →
    (∀ i ∈ ([.ping, .deviceInfo, .getName, .getUptime, .getVersion, .getCountCorrect, .getCountOverflow,
        .getCountLost, .getCountMismatch, .getCountAll, .getUuid, .getExtendedInfo, .bcUuidPing,
        .bcUuidGetAddress] : List Instr),
      exec i s = .next { s with fault := some .txOverlap }) ∧
    exec .resetCounts s = .next
      { s with cntCorrect := 0, cntOverflow := 0, cntLost := 0, cntMismatch := 0, fault := some .txOverlap } ∧
    (s.myAddress = 0 → exec .bcUuidRequest s = .next { s with fault := some .txOverlap }) ∧
    exec .bcUuidResetAddress s = .next { s with myAddress := 0, fault := some .txOverlap } ∧
    (∀ a : Addr, exec (.bcUuidSetAddress a) s = .next
      { s with
        myAddress := if 0 < a.toNat ∧ a.toNat < s.cfg.masterAddr.toNat then a else s.myAddress
        fault := some .txOverlap }) ∧
    (∀ p r : List Byte, s.cfg.appRequestRegistered = true → applicationAnswer s p = .reply r →
      r.length ≤ s.cfg.maxPayload →
      exec (.appRequest p) s = .next { afterApplication s p with fault := some .txOverlap })

/-- Application broadcasts reach the application's handler: a legacy one with an empty payload and id 0, the device's own
family's with the remainder and `PROTOCOL_ID`; never an answer (R231, R232; log 8). -/
def Obligations.ApplicationBroadcasts : Prop :=
  ∀ s : State, Dispatching s →
    exec .bcLegacy s = .next (resumed { s with trace := s.trace ++ [.appBroadcast [] 0x00] }) ∧
    ∀ rest, exec (.bcApp rest) s =
      .next (resumed { s with trace := s.trace ++ [.appBroadcast rest s.cfg.protocolId] })

/-- The segment commands set a definite value and emit it, reset-all-addresses clears the address; never an answer (R247,
R248, R249; log 8). -/
def Obligations.SegmentAndResetAll : Prop :=
  ∀ s : State, Dispatching s →
    exec .bcEnableNeighbours s =
      .next (resumed { s with segmentEnable := true, trace := s.trace ++ [.segment true] }) ∧
    exec .bcDisableNeighbours s =
      .next (resumed { s with segmentEnable := false, trace := s.trace ++ [.segment false] }) ∧
    exec .bcResetAllAddresses s = .next (resumed { s with myAddress := 0 })

/-- The bus-assertion request: `BusAssert` is emitted exactly when the mask length is 1 to 32 and the low bits of the UUID
equal the little-endian pattern of up to four bytes; never an answer, no register changes (R252 to R256; log 8). -/
def Obligations.BusAssertEffect : Prop :=
  ∀ (s : State) (m : Byte) (bytes : List Byte), Dispatching s →
    exec (.bcBusAssert m bytes) s = .next (resumed
      { s with trace := s.trace ++
          (if 1 ≤ m.toNat ∧ m.toNat ≤ 32 ∧ s.uuid.toNat % 2 ^ m.toNat = leVal (bytes.take 4)
            then [.busAssert] else []) })

/-- With the full 32-bit mask and four pattern bytes a device asserts exactly for its own UUID (R257 (a); log 8). -/
def Obligations.FullMaskAssertsOwnUuid : Prop :=
  ∀ (s : State) (bytes : List Byte), Dispatching s → bytes.length = 4 →
    (bytes = le s.cfg.uuid.toNat 4 → exec (.bcBusAssert 32 bytes) s =
      .next (resumed { s with trace := s.trace ++ [.busAssert] })) ∧
    (bytes ≠ le s.cfg.uuid.toNat 4 → exec (.bcBusAssert 32 bytes) s = .next (resumed s))

/-- An operation offered while its enabling condition is false has no step: the model stops with the fault `notEnabled`
(R12; the form of the stop is the model's choice, log 4). -/
def Obligations.NotEnabledHasNoStep : Prop :=
  ∀ (i : Instr) (s : State), s.fault = none → enabledWhen i s = false → exec i s = .fault .notEnabled

/-- While the fault mark is set nothing but `RESET` is enabled (R51; the form of the stop is the model's choice, log 5). -/
def Obligations.MarkedDeviceOnlyResets : Prop :=
  ∀ (i : Instr) (s : State) (m : FaultMark), s.fault = some m → i ≠ .reset → exec i s = .fault (.marked m)

/-- A burst of 2 to `BUF_SIZE - 1` bytes with an accepted leading address, followed by the idle gap, becomes the pending
frame; a frame still pending before it is lost and counted exactly once; nothing else changes (R151, R155 to R159). -/
def Obligations.BurstBecomesPending : Prop :=
  ∀ (s : State) (f : List Byte), s.fault = none → s.cfg.Valid → s.rxEnable = true → s.rxOffset = 0 →
    s.overflowFlag = false → 2 ≤ f.length → f.length < s.cfg.bufSize →
    (addrOf (f.take s.cfg.addrLen) = s.myAddress ∨ addrOf (f.take s.cfg.addrLen) = s.cfg.broadcastAddr) →
    ∃ t, performAll (burst f) s = .next t ∧
      t = { s with
            rx := t.rx
            pendingLen := f.length
            heartbeatSuppress := true
            cntLost := if s.lostFlag = true ∨ s.pendingLen ≠ 0 then s.cntLost + 1 else s.cntLost
            lostFlag := false
            timerArmed := false
            trace := s.trace ++ List.replicate f.length .timerRestart } ∧
      ∀ j, t.rx.read j = if j < f.length then f[j]? else s.rx.read j

/-- A burst that is a single byte or has a foreign leading address is ignored, uncounted; a frame pending before it is lost
and counted exactly once (R151, R156, R159 (e), R304, R306). -/
def Obligations.UnacceptedBurstIgnored : Prop :=
  ∀ (s : State) (f : List Byte), s.fault = none → s.cfg.Valid → s.rxEnable = true → s.rxOffset = 0 →
    s.overflowFlag = false → f ≠ [] → f.length < s.cfg.bufSize →
    (f.length = 1 ∨ (addrOf (f.take s.cfg.addrLen) ≠ s.myAddress ∧
      addrOf (f.take s.cfg.addrLen) ≠ s.cfg.broadcastAddr)) →
    ∃ t, performAll (burst f) s = .next t ∧
      t = { s with
            rx := t.rx
            pendingLen := 0
            cntLost := if s.lostFlag = true ∨ s.pendingLen ≠ 0 then s.cntLost + 1 else s.cntLost
            lostFlag := false
            timerArmed := false
            trace := s.trace ++ List.replicate f.length .timerRestart }

/-- A burst of `BUF_SIZE` bytes or more, of any length and to any address, counts exactly one overflow and is never
pending (R152, R157, R159 (c)). -/
def Obligations.OverflowCountedOnce : Prop :=
  ∀ (s : State) (f : List Byte), s.fault = none → s.cfg.Valid → s.rxEnable = true → s.rxOffset = 0 →
    s.overflowFlag = false → s.cfg.bufSize ≤ f.length →
    ∃ t, performAll (burst f) s = .next t ∧
      t = { s with
            rx := t.rx
            pendingLen := 0
            cntOverflow := s.cntOverflow + 1
            cntLost := if s.lostFlag = true ∨ s.pendingLen ≠ 0 then s.cntLost + 1 else s.cntLost
            lostFlag := false
            timerArmed := false
            trace := s.trace ++ List.replicate f.length .timerRestart }

/-- A valid frame to the device's own or the broadcast address is received, taken, verified and counted, and reaches
`PE_DISPATCH` with its payload stripped of address and checksum, reception suspended (R105, R171 to R177). -/
def Obligations.ValidFrameReachesDispatch : Prop :=
  ∀ (s : State) (a : Addr) (p : List Byte), s.fault = none → s.cfg.Valid → s.pePhase = .idle →
    s.rxEnable = true → s.rxOffset = 0 → s.overflowFlag = false → a.toNat < 256 ^ s.cfg.addrLen →
    (a = s.myAddress ∨ a = s.cfg.broadcastAddr) →
    s.cfg.addrLen + p.length + 1 < s.cfg.bufSize →
    ∃ t, performAll (burst (frameBytes s.cfg a p) ++ [.pePoll, .peSuspendRx, .peVerify]) s = .next t ∧
      latchedFrame t = .ok (a, p) ∧ t.pePhase = .dispatch ∧ t.rxEnable = false ∧ t.pendingLen = 0 ∧
      t.cntCorrect = s.cntCorrect + 1 ∧ t.cntMismatch = s.cntMismatch ∧ t.cntOverflow = s.cntOverflow ∧
      t.myAddress = s.myAddress ∧ t.tx = s.tx ∧ t.fault = none

/-- The transmitter's part of one reply: handing over the `n` bytes of a frame and the completion emit exactly those bytes
in index order, then the release of the line, then the resumption of reception (R274, R275, R277). -/
def Obligations.ReplyTransmitted : Prop :=
  ∀ (s : State) (f : List Byte), s.fault = none → s.txState = .sending → s.txOffset = 0 →
    s.txLen = f.length → 0 < f.length → f.length ≤ s.cfg.bufSize → Holds s.tx 0 f →
    performAll (List.replicate f.length .txReady ++ [.txComplete]) s = .next
      { s with
        txOffset := f.length
        txReadyEn := false
        txCompleteEn := false
        lineDrive := false
        rxEnable := true
        trace := s.trace ++ f.map .txByte ++ [.lineDrive false] ++
          (if s.rxEnable = true then [] else [.rxEnable true]) }

/-- While the heartbeat is suppressed, any number of ticks leaves the indicator and the trace as they are and advances
only the uptime, modulo 2^32, and the divider (R290, R291, R292). -/
def Obligations.SuppressedHeartbeatFrozen : Prop :=
  ∀ (s : State) (k : Nat), s.fault = none → s.heartbeatSuppress = true →
    ∃ t, performAll (List.replicate k .tick) s = .next t ∧
      t = { s with uptime := s.uptime + BitVec.ofNat 32 k, hbDiv := t.hbDiv }

/-- For one bus-assertion request handled by every device, the bit the master observes is set exactly when some device's
UUID matches (R322 (c); the composition of devices is Machine/Bus.lean, log 16). -/
def Obligations.WiredOrOfAssertions : Prop :=
  ∀ (m : Byte) (bytes : List Byte) (before after : Devices),
    List.Forall₂ (fun d d' => Dispatching d ∧ exec (.bcBusAssert m bytes) d = .next d') before after →
    (asserted before after = true ↔ ∃ d ∈ before, 1 ≤ m.toNat ∧ m.toNat ≤ 32 ∧
      d.uuid.toNat % 2 ^ m.toNat = leVal (bytes.take 4))

/-- The bit-by-bit search over bus assertions finds the UUID of a device on the bus (R257 (c)); that one request for each
bit suffices, a 1 being taken where no device asserts for 0, is the model's choice, log 16. -/
def Obligations.SearchFindsUuid : Prop :=
  ∀ ds : Devices, ds ≠ [] → ∃ d ∈ ds, d.uuid.toNat = searchUuid ds 32

/-- What a byte on the line does at device `e`, number `j`. The master's byte: behind a device whose segment is disabled
nothing is heard; where every nearer device passes through and no device of the stretch drives the line, exactly that byte
is heard; where one drives it, bytes of the environment's choice. A device's own `TX_READY`: the byte it hands over is
heard by every other device on its stretch, when no third device drives it there, and the sender's own state is that of
its operation alone (R322 (a), (b), (d), R248; the composition of devices is the spec's decision D38 and Machine/Bus.lean,
log 16; that the master's byte is garbled by a device that drives the line, and a device's byte never by the master, is
the model's choice, log 16). -/
def Obligations.DisabledSegmentHidesDevices : Prop :=
  ∀ (heard : Nat → List Byte) (ds : Devices) (j : Nat) (e : State), ds[j]? = some e →
    (∀ (b : Byte) (i : Nat) (d : State), i < j → ds[i]? = some d → d.segmentEnable = false →
      (masterSends heard b ds)[j]? = some e) ∧
    (∀ b : Byte, (∀ (i : Nat) (d : State), i < j → ds[i]? = some d → d.segmentEnable = true) →
      ((∀ (i : Nat) (d : State), ds[i]? = some d → connected ds i j = true → d.lineDrive = false) →
        (masterSends heard b ds)[j]? = some (hearByte b e)) ∧
      (∀ (i : Nat) (d : State), ds[i]? = some d → connected ds i j = true → d.lineDrive = true →
        (masterSends heard b ds)[j]? = some (hearBytes (heard j) e))) ∧
    (∀ (k : Nat) (d d' : State) (b : Byte), ds[k]? = some d → exec .txReady d = .next d' →
      d.tx.read d.txOffset = some b →
      (j = k → (deviceOperates heard k .txReady ds)[j]? = some d') ∧
      (j ≠ k → connected ds k j = false → (deviceOperates heard k .txReady ds)[j]? = some e) ∧
      (j ≠ k → connected ds k j = true →
        (∀ (i : Nat) (x : State), i ≠ k → ds[i]? = some x → connected ds i j = true → x.lineDrive = false) →
        (deviceOperates heard k .txReady ds)[j]? = some (hearByte b e)))
end

