-- ==== Sys2Proof/Laws/Bus.lean ====
section
/-! SUPPORT. The laws of the line (R322): what each device's state is after a byte, and how a line is made. -/

namespace Sys2Proof.Machine

/-- A numbered map acts on each device with its number. -/
theorem getElem?_mapNumbered (f : Nat → State → State) (ds : Devices) :
    ∀ k n, (mapNumbered f k ds)[n]? = (ds[n]?).map (f (k + n)) := by
  induction ds with
  | nil => simp [mapNumbered]
  | cons d ds ih =>
    intro k n
    cases n with
    | zero => simp [mapNumbered]
    | succ n =>
      have h : k + 1 + n = k + (n + 1) := by omega
      simp [mapNumbered, ih, h]

@[simp] theorem length_mapNumbered (f : Nat → State → State) (ds : Devices) :
    ∀ k, (mapNumbered f k ds).length = ds.length := by
  induction ds with
  | nil => exact fun _ => rfl
  | cons d ds ih => simp [mapNumbered, ih]

/-- Everything a byte on the line does at device `j` (R322 (a), (b)). -/
theorem getElem?_putByte (heard : Nat → List Byte) (talker : Talker) (b : Byte) (ds : Devices) (j : Nat) :
    (putByte heard talker b ds)[j]? = (ds[j]?).map fun d =>
      if reaches ds talker j then hearBytes (if contended ds talker j then heard j else [b]) d else d := by
  simp [putByte, getElem?_mapNumbered]

/-- An assertion's noise reaches device `j` as the environment chose it (U9). -/
theorem getElem?_lineGarbled (heard : Nat → List Byte) (ds : Devices) (j : Nat) :
    (lineGarbled heard ds)[j]? = (ds[j]?).map (hearBytes (heard j)) := by
  simp [lineGarbled, getElem?_mapNumbered]

@[simp] theorem hearBytes_singleton (b : Byte) (d : State) : hearBytes [b] d = hearByte b d := rfl

@[simp] theorem hearBytes_nil (d : State) : hearBytes [] d = d := rfl

/-- No device between `i` and `j` that cuts its segment off: they are on one stretch (R322 (d)). -/
theorem segmentsOpen_iff {ds : Devices} {i j : Nat} :
    segmentsOpen ds i j = true ↔ ∀ k d, i ≤ k → k < j → ds[k]? = some d → d.segmentEnable = true := by
  simp only [segmentsOpen, List.all_eq_true, List.mem_iff_getElem?, List.getElem?_drop, List.getElem?_take]
  constructor
  · intro h k d hi hj hk
    refine h d ⟨k - i, ?_⟩
    rw [show i + (k - i) = k by omega, if_pos hj, hk]
  · rintro h d ⟨n, hn⟩
    split at hn
    · exact h (i + n) d (by omega) (by assumption) hn
    · cases hn

/-- A collision is a device on the stretch, not the talker, that drives the line (R322 (b)). -/
theorem contended_iff {ds : Devices} {talker : Talker} {j : Nat} :
    contended ds talker j = true ↔
      ∃ i d, talker ≠ .device i ∧ ds[i]? = some d ∧ d.lineDrive = true ∧ connected ds i j = true := by
  simp only [contended, drives, List.any_eq_true, List.mem_range, Bool.and_eq_true, decide_eq_true_eq,
    Option.any_eq_true]
  constructor
  · rintro ⟨i, -, ⟨h1, d, h2, h3⟩, h4⟩
    exact ⟨i, d, h1, h2, h3, h4⟩
  · rintro ⟨i, d, h1, h2, h3, h4⟩
    exact ⟨i, (List.getElem?_eq_some_iff.1 h2).1, ⟨h1, d, h2, h3⟩, h4⟩

/-- A line that is made has equal bus-wide parameters, and every device of it is a reset device (R322). -/
theorem powerUp_eq_some {cs : List Config} {ds : Devices} (h : powerUp cs = some ds) :
    ds = cs.map State.initial ∧ (∀ c ∈ cs, c.Valid) ∧ SameBus ds := by
  unfold powerUp at h
  split at h
  · rename_i hc
    cases h
    exact ⟨rfl, hc.1, hc.2⟩
  · cases h

end Sys2Proof.Machine
end

