-- ==== Sys2Proof/Laws/Checksum.lean ====
section
/-! SUPPORT. Small laws of the checksum unit (40_checksum.md): how the folds extend by one byte. -/

namespace Sys2Proof

@[simp] theorem xor8_nil : xor8 [] = 0 := rfl

theorem xor8_append_byte (s : List Byte) (b : Byte) : xor8 (s ++ [b]) = xor8 s ^^^ b := by
  simp [xor8, List.foldl_append]

@[simp] theorem crc8_nil (c : Config) : crc8 c [] = c.crc8Init := rfl

theorem crc8_append_byte (c : Config) (s : List Byte) (b : Byte) :
    crc8 c (s ++ [b]) = crc8Byte c.crc8Poly (crc8 c s) b := by
  simp [crc8, List.foldl_append]

theorem csum_xor {c : Config} (h : c.csumKind = .xor) (s : List Byte) : csum c s = xor8 s := by simp [csum, h]

theorem csum_crc8 {c : Config} (h : c.csumKind = .crc8) (s : List Byte) : csum c s = crc8 c s := by simp [csum, h]

end Sys2Proof
end

