-- ==== Sys2Proof/Laws/Memory.lean ====
section
/-! SUPPORT. The laws of a buffer's contents: read after write, frames, the canonical form (log 6). -/

namespace Sys2Proof.Machine

@[simp] theorem Memory.read_nil (i : Nat) : Memory.read [] i = none := rfl

/-- The one law of a write: the written index reads the byte, every other index reads as before (R78). The canonical
form is not needed. -/
theorem Memory.read_write (m : Memory) (i : Nat) (b : Byte) (j : Nat) :
    (m.write i b).read j = if j = i then some b else m.read j := by
  induction m with
  | nil =>
    by_cases h : j = i
    · simp [Memory.write, Memory.read, h]
    · simp [Memory.write, Memory.read, h, Ne.symm h]
  | cons c rest ih =>
    obtain ⟨k, v⟩ := c
    unfold Memory.write
    split
    · by_cases h : j = i
      · simp [Memory.read, h]
      · simp [Memory.read, h, Ne.symm h]
    · split
      · subst_vars
        by_cases h : j = k
        · simp [Memory.read, h]
        · simp [Memory.read, h, Ne.symm h]
      · rename_i h1 h2
        by_cases h : k = j
        · subst h
          simp [Memory.read, Ne.symm h2]
        · simp [Memory.read, h, ih]

@[simp] theorem Memory.read_write_same (m : Memory) (i : Nat) (b : Byte) : (m.write i b).read i = some b := by
  simp [Memory.read_write]

theorem Memory.read_write_ne (m : Memory) {i j : Nat} (b : Byte) (h : j ≠ i) :
    (m.write i b).read j = m.read j := by
  simp [Memory.read_write, h]

/-- The entries of a written buffer are the new one and old ones. -/
theorem Memory.mem_write {m : Memory} {i : Nat} {b : Byte} {c : Host.Cell} (h : c ∈ m.write i b) :
    c = (i, b) ∨ c ∈ m := by
  induction m with
  | nil => simpa [Memory.write] using h
  | cons d rest ih =>
    obtain ⟨k, v⟩ := d
    unfold Memory.write at h
    split at h
    · simpa using h
    · split at h
      · rcases List.mem_cons.1 h with h | h
        · exact .inl h
        · exact .inr (List.mem_cons_of_mem _ h)
      · rcases List.mem_cons.1 h with h | h
        · exact .inr (h ▸ List.mem_cons_self ..)
        · rcases ih h with h | h
          · exact .inl h
          · exact .inr (List.mem_cons_of_mem _ h)

/-- A write keeps the canonical form. -/
theorem Memory.wf_write {m : Memory} (h : m.wf) (i : Nat) (b : Byte) : (m.write i b).wf := by
  induction m with
  | nil => simp [Memory.write, Memory.wf]
  | cons d rest ih =>
    obtain ⟨k, v⟩ := d
    obtain ⟨hk, hrest⟩ := List.pairwise_cons.1 h
    unfold Memory.write
    split
    · rename_i hlt
      refine List.pairwise_cons.2 ⟨?_, h⟩
      intro c hc
      rcases List.mem_cons.1 hc with rfl | hc
      · exact hlt
      · exact lt_trans hlt (hk c hc)
    · split
      · rename_i heq
        subst heq
        exact List.pairwise_cons.2 ⟨hk, hrest⟩
      · rename_i hlt hne
        refine List.pairwise_cons.2 ⟨?_, ih hrest⟩
        intro c hc
        rcases Memory.mem_write hc with rfl | hc
        · exact lt_of_le_of_ne (Nat.le_of_not_lt hlt) (Ne.symm hne)
        · exact hk c hc

/-- A write inside the buffer keeps every entry inside. -/
theorem Memory.inside_write {m : Memory} {n i : Nat} (h : ∀ c ∈ m, c.1 < n) (hi : i < n) (b : Byte) :
    ∀ c ∈ m.write i b, c.1 < n := by
  intro c hc
  rcases Memory.mem_write hc with rfl | hc
  · exact hi
  · exact h c hc

/-- A block write: the written block reads the bytes, every other index reads as before. -/
theorem Memory.read_writeAll (bs : List Byte) : ∀ (m : Memory) (a j : Nat),
    (m.writeAll a bs).read j = if a ≤ j ∧ j < a + bs.length then bs[j - a]? else m.read j := by
  induction bs with
  | nil =>
    intro m a j
    have h : ¬ (a ≤ j ∧ j < a + ([] : List Byte).length) := by simp
    rw [if_neg h]
    rfl
  | cons b rest ih =>
    intro m a j
    rw [Memory.writeAll, ih, Memory.read_write]
    by_cases h1 : j = a
    · subst h1
      simp
    · by_cases h2 : a + 1 ≤ j ∧ j < a + 1 + rest.length
      · have h3 : a ≤ j ∧ j < a + (b :: rest).length := by
          simp only [List.length_cons]
          omega
        have h4 : j - a = j - (a + 1) + 1 := by omega
        rw [if_pos h2, if_pos h3, h4, List.getElem?_cons_succ]
      · have h3 : ¬ (a ≤ j ∧ j < a + (b :: rest).length) := by
          simp only [List.length_cons]
          omega
        rw [if_neg h2, if_neg h1, if_neg h3]

/-- A block write keeps the canonical form. -/
theorem Memory.wf_writeAll (bs : List Byte) : ∀ {m : Memory}, m.wf → ∀ a, (m.writeAll a bs).wf := by
  induction bs with
  | nil => exact fun h _ => h
  | cons b rest ih => exact fun h a => ih (Memory.wf_write h a b) (a + 1)

/-- A block write inside the buffer keeps every entry inside. -/
theorem Memory.inside_writeAll (bs : List Byte) {n : Nat} : ∀ {m : Memory}, (∀ c ∈ m, c.1 < n) →
    ∀ {a}, a + bs.length ≤ n → ∀ c ∈ m.writeAll a bs, c.1 < n := by
  induction bs with
  | nil => exact fun h _ _ => h
  | cons b rest ih =>
    intro m h a ha
    simp only [List.length_cons] at ha
    exact ih (Memory.inside_write h (by omega) b) (by omega)

/-- The reset state's buffers have the canonical form. -/
theorem Memory.wf_reset : State.reset.rx.wf ∧ State.reset.tx.wf := ⟨.nil, .nil⟩

end Sys2Proof.Machine
end

