-- ==== Sys2Proof/Laws/Operands.lean ====
section
/-! SUPPORT. The laws of little-endian sequences (R15) and of whole frames (R100). -/

namespace Sys2Proof

@[simp] theorem le_length (v n : Nat) : (le v n).length = n := by
  induction n generalizing v with
  | zero => rfl
  | succ n ih => simp [le, ih]

/-- `le_val` undoes `le` up to the width (R15). -/
theorem leVal_le (v n : Nat) : leVal (le v n) = v % 256 ^ n := by
  induction n generalizing v with
  | zero => simp [le, leVal, Nat.mod_one]
  | succ n ih =>
    have h : (BitVec.ofNat 8 v).toNat = v % 256 := by simp
    rw [le, leVal, ih, h, pow_succ, Nat.mul_comm (256 ^ n) 256, Nat.mod_mul]

/-- `le` undoes `le_val` (R15). -/
theorem le_leVal (s : List Byte) : le (leVal s) s.length = s := by
  induction s with
  | nil => rfl
  | cons b rest ih =>
    have h1 : (b.toNat + 256 * leVal rest) / 256 = leVal rest := by
      have := b.isLt
      omega
    have h2 : BitVec.ofNat 8 (b.toNat + 256 * leVal rest) = b := by
      apply BitVec.eq_of_toNat_eq
      have := b.isLt
      simp only [BitVec.toNat_ofNat]
      omega
    simp only [leVal, List.length_cons, le, h1, h2, ih]

theorem leVal_lt (s : List Byte) : leVal s < 256 ^ s.length := by
  induction s with
  | nil => simp [leVal]
  | cons b rest ih =>
    have := b.isLt
    simp only [leVal, List.length_cons, pow_succ]
    omega

@[simp] theorem addrField_length (c : Config) (a : Addr) : (addrField c a).length = c.addrLen := le_length _ _

@[simp] theorem uuidField_length (c : Config) : (uuidField c).length = 4 := le_length _ _

@[simp] theorem uuidHead_length (c : Config) : (uuidHead c).length = 6 := by simp [uuidHead]

/-- An address that fits the field is read back (R101). -/
theorem addrOf_addrField {c : Config} {a : Addr} (h : a.toNat < 256 ^ c.addrLen) : addrOf (addrField c a) = a := by
  simp [addrOf, addrField, leVal_le, Nat.mod_eq_of_lt h]

/-- A field of at most two bytes is the address field of its value (R101). -/
theorem addrField_addrOf {c : Config} {field : List Byte} (hc : c.addrLen ≤ 2) (h : field.length = c.addrLen) :
    addrField c (addrOf field) = field := by
  have h1 : leVal field < 65536 := by
    refine lt_of_lt_of_le (leVal_lt field) ?_
    rw [h]
    calc 256 ^ c.addrLen ≤ 256 ^ 2 := Nat.pow_le_pow_right (by decide) hc
      _ = 65536 := by norm_num
  have h2 : (addrOf field).toNat = leVal field := by simp [addrOf, Nat.mod_eq_of_lt h1]
  rw [addrField, h2, ← h, le_leVal]

@[simp] theorem frameBytes_length (c : Config) (a : Addr) (p : List Byte) :
    (frameBytes c a p).length = c.addrLen + p.length + 1 := by
  simp [frameBytes]
  omega

@[simp] theorem replyFrame_length (c : Config) (a : Addr) (r : List Byte) :
    (replyFrame c a r).length = c.addrLen + r.length + 1 := frameBytes_length _ _ _

end Sys2Proof
end

