-- ==== Sys2Proof/Laws/State.lean ====
section
/-! SUPPORT. One lemma per field for each shared update of the state, so that no later proof unfolds one. -/

namespace Sys2Proof.Machine

@[simp] theorem emit_cfg (e : OutEvent) (s : State) : (emit e s).cfg = s.cfg := rfl
@[simp] theorem emit_rxOffset (e : OutEvent) (s : State) : (emit e s).rxOffset = s.rxOffset := rfl
@[simp] theorem emit_txLen (e : OutEvent) (s : State) : (emit e s).txLen = s.txLen := rfl
@[simp] theorem emit_txOffset (e : OutEvent) (s : State) : (emit e s).txOffset = s.txOffset := rfl
@[simp] theorem emit_peLen (e : OutEvent) (s : State) : (emit e s).peLen = s.peLen := rfl
@[simp] theorem emit_hbDiv (e : OutEvent) (s : State) : (emit e s).hbDiv = s.hbDiv := rfl
@[simp] theorem emit_pePhase (e : OutEvent) (s : State) : (emit e s).pePhase = s.pePhase := rfl
@[simp] theorem emit_overflowFlag (e : OutEvent) (s : State) : (emit e s).overflowFlag = s.overflowFlag := rfl
@[simp] theorem emit_lostFlag (e : OutEvent) (s : State) : (emit e s).lostFlag = s.lostFlag := rfl
@[simp] theorem emit_heartbeatSuppress (e : OutEvent) (s : State) : (emit e s).heartbeatSuppress = s.heartbeatSuppress := rfl
@[simp] theorem emit_timerArmed (e : OutEvent) (s : State) : (emit e s).timerArmed = s.timerArmed := rfl
@[simp] theorem emit_pendingLen (e : OutEvent) (s : State) : (emit e s).pendingLen = s.pendingLen := rfl
@[simp] theorem emit_myAddress (e : OutEvent) (s : State) : (emit e s).myAddress = s.myAddress := rfl
@[simp] theorem emit_cntCorrect (e : OutEvent) (s : State) : (emit e s).cntCorrect = s.cntCorrect := rfl
@[simp] theorem emit_cntOverflow (e : OutEvent) (s : State) : (emit e s).cntOverflow = s.cntOverflow := rfl
@[simp] theorem emit_cntLost (e : OutEvent) (s : State) : (emit e s).cntLost = s.cntLost := rfl
@[simp] theorem emit_cntMismatch (e : OutEvent) (s : State) : (emit e s).cntMismatch = s.cntMismatch := rfl
@[simp] theorem emit_uptime (e : OutEvent) (s : State) : (emit e s).uptime = s.uptime := rfl
@[simp] theorem emit_rxEnable (e : OutEvent) (s : State) : (emit e s).rxEnable = s.rxEnable := rfl
@[simp] theorem emit_lineDrive (e : OutEvent) (s : State) : (emit e s).lineDrive = s.lineDrive := rfl
@[simp] theorem emit_segmentEnable (e : OutEvent) (s : State) : (emit e s).segmentEnable = s.segmentEnable := rfl
@[simp] theorem emit_txReadyEn (e : OutEvent) (s : State) : (emit e s).txReadyEn = s.txReadyEn := rfl
@[simp] theorem emit_txCompleteEn (e : OutEvent) (s : State) : (emit e s).txCompleteEn = s.txCompleteEn := rfl
@[simp] theorem emit_heartbeat (e : OutEvent) (s : State) : (emit e s).heartbeat = s.heartbeat := rfl
@[simp] theorem emit_rx (e : OutEvent) (s : State) : (emit e s).rx = s.rx := rfl
@[simp] theorem emit_tx (e : OutEvent) (s : State) : (emit e s).tx = s.tx := rfl
@[simp] theorem emit_fault (e : OutEvent) (s : State) : (emit e s).fault = s.fault := rfl
@[simp] theorem emit_trace (e : OutEvent) (s : State) : (emit e s).trace = s.trace ++ [e] := rfl
@[simp] theorem emit_stimulus (e : OutEvent) (s : State) : (emit e s).stimulus = s.stimulus := rfl
@[simp] theorem emit_appAnswers (e : OutEvent) (s : State) : (emit e s).appAnswers = s.appAnswers := rfl
@[simp] theorem emit_appCalls (e : OutEvent) (s : State) : (emit e s).appCalls = s.appCalls := rfl

@[simp] theorem setRxEnable_cfg (v : Bool) (s : State) : (setRxEnable v s).cfg = s.cfg := rfl
@[simp] theorem setRxEnable_rxOffset (v : Bool) (s : State) : (setRxEnable v s).rxOffset = s.rxOffset := rfl
@[simp] theorem setRxEnable_txLen (v : Bool) (s : State) : (setRxEnable v s).txLen = s.txLen := rfl
@[simp] theorem setRxEnable_txOffset (v : Bool) (s : State) : (setRxEnable v s).txOffset = s.txOffset := rfl
@[simp] theorem setRxEnable_peLen (v : Bool) (s : State) : (setRxEnable v s).peLen = s.peLen := rfl
@[simp] theorem setRxEnable_hbDiv (v : Bool) (s : State) : (setRxEnable v s).hbDiv = s.hbDiv := rfl
@[simp] theorem setRxEnable_pePhase (v : Bool) (s : State) : (setRxEnable v s).pePhase = s.pePhase := rfl
@[simp] theorem setRxEnable_overflowFlag (v : Bool) (s : State) : (setRxEnable v s).overflowFlag = s.overflowFlag := rfl
@[simp] theorem setRxEnable_lostFlag (v : Bool) (s : State) : (setRxEnable v s).lostFlag = s.lostFlag := rfl
@[simp] theorem setRxEnable_heartbeatSuppress (v : Bool) (s : State) : (setRxEnable v s).heartbeatSuppress = s.heartbeatSuppress := rfl
@[simp] theorem setRxEnable_timerArmed (v : Bool) (s : State) : (setRxEnable v s).timerArmed = s.timerArmed := rfl
@[simp] theorem setRxEnable_pendingLen (v : Bool) (s : State) : (setRxEnable v s).pendingLen = s.pendingLen := rfl
@[simp] theorem setRxEnable_myAddress (v : Bool) (s : State) : (setRxEnable v s).myAddress = s.myAddress := rfl
@[simp] theorem setRxEnable_cntCorrect (v : Bool) (s : State) : (setRxEnable v s).cntCorrect = s.cntCorrect := rfl
@[simp] theorem setRxEnable_cntOverflow (v : Bool) (s : State) : (setRxEnable v s).cntOverflow = s.cntOverflow := rfl
@[simp] theorem setRxEnable_cntLost (v : Bool) (s : State) : (setRxEnable v s).cntLost = s.cntLost := rfl
@[simp] theorem setRxEnable_cntMismatch (v : Bool) (s : State) : (setRxEnable v s).cntMismatch = s.cntMismatch := rfl
@[simp] theorem setRxEnable_uptime (v : Bool) (s : State) : (setRxEnable v s).uptime = s.uptime := rfl
@[simp] theorem setRxEnable_rxEnable (v : Bool) (s : State) : (setRxEnable v s).rxEnable = v := rfl
@[simp] theorem setRxEnable_lineDrive (v : Bool) (s : State) : (setRxEnable v s).lineDrive = s.lineDrive := rfl
@[simp] theorem setRxEnable_segmentEnable (v : Bool) (s : State) : (setRxEnable v s).segmentEnable = s.segmentEnable := rfl
@[simp] theorem setRxEnable_txReadyEn (v : Bool) (s : State) : (setRxEnable v s).txReadyEn = s.txReadyEn := rfl
@[simp] theorem setRxEnable_txCompleteEn (v : Bool) (s : State) : (setRxEnable v s).txCompleteEn = s.txCompleteEn := rfl
@[simp] theorem setRxEnable_heartbeat (v : Bool) (s : State) : (setRxEnable v s).heartbeat = s.heartbeat := rfl
@[simp] theorem setRxEnable_rx (v : Bool) (s : State) : (setRxEnable v s).rx = s.rx := rfl
@[simp] theorem setRxEnable_tx (v : Bool) (s : State) : (setRxEnable v s).tx = s.tx := rfl
@[simp] theorem setRxEnable_fault (v : Bool) (s : State) : (setRxEnable v s).fault = s.fault := rfl
@[simp] theorem setRxEnable_trace (v : Bool) (s : State) : (setRxEnable v s).trace = s.trace ++ (if s.rxEnable = v then [] else [.rxEnable v]) := rfl
@[simp] theorem setRxEnable_stimulus (v : Bool) (s : State) : (setRxEnable v s).stimulus = s.stimulus := rfl
@[simp] theorem setRxEnable_appAnswers (v : Bool) (s : State) : (setRxEnable v s).appAnswers = s.appAnswers := rfl
@[simp] theorem setRxEnable_appCalls (v : Bool) (s : State) : (setRxEnable v s).appCalls = s.appCalls := rfl

@[simp] theorem raiseError_cfg (x : ErrorClass) (s : State) : (raiseError x s).cfg = s.cfg := rfl
@[simp] theorem raiseError_rxOffset (x : ErrorClass) (s : State) : (raiseError x s).rxOffset = s.rxOffset := rfl
@[simp] theorem raiseError_txLen (x : ErrorClass) (s : State) : (raiseError x s).txLen = s.txLen := rfl
@[simp] theorem raiseError_txOffset (x : ErrorClass) (s : State) : (raiseError x s).txOffset = s.txOffset := rfl
@[simp] theorem raiseError_peLen (x : ErrorClass) (s : State) : (raiseError x s).peLen = s.peLen := rfl
@[simp] theorem raiseError_hbDiv (x : ErrorClass) (s : State) : (raiseError x s).hbDiv = s.hbDiv := rfl
@[simp] theorem raiseError_pePhase (x : ErrorClass) (s : State) : (raiseError x s).pePhase = s.pePhase := rfl
@[simp] theorem raiseError_overflowFlag (x : ErrorClass) (s : State) : (raiseError x s).overflowFlag = s.overflowFlag := rfl
@[simp] theorem raiseError_lostFlag (x : ErrorClass) (s : State) : (raiseError x s).lostFlag = s.lostFlag := rfl
@[simp] theorem raiseError_heartbeatSuppress (x : ErrorClass) (s : State) : (raiseError x s).heartbeatSuppress = s.heartbeatSuppress := rfl
@[simp] theorem raiseError_timerArmed (x : ErrorClass) (s : State) : (raiseError x s).timerArmed = s.timerArmed := rfl
@[simp] theorem raiseError_pendingLen (x : ErrorClass) (s : State) : (raiseError x s).pendingLen = s.pendingLen := rfl
@[simp] theorem raiseError_myAddress (x : ErrorClass) (s : State) : (raiseError x s).myAddress = s.myAddress := rfl
@[simp] theorem raiseError_cntCorrect (x : ErrorClass) (s : State) : (raiseError x s).cntCorrect = s.cntCorrect := rfl
@[simp] theorem raiseError_cntOverflow (x : ErrorClass) (s : State) : (raiseError x s).cntOverflow = s.cntOverflow + (if x = .bufferOverflow then 1 else 0) := rfl
@[simp] theorem raiseError_cntLost (x : ErrorClass) (s : State) : (raiseError x s).cntLost = s.cntLost + (if x = .packetLost then 1 else 0) := rfl
@[simp] theorem raiseError_cntMismatch (x : ErrorClass) (s : State) : (raiseError x s).cntMismatch = s.cntMismatch + (if x = .checksumMismatch then 1 else 0) := rfl
@[simp] theorem raiseError_uptime (x : ErrorClass) (s : State) : (raiseError x s).uptime = s.uptime := rfl
@[simp] theorem raiseError_rxEnable (x : ErrorClass) (s : State) : (raiseError x s).rxEnable = s.rxEnable := rfl
@[simp] theorem raiseError_lineDrive (x : ErrorClass) (s : State) : (raiseError x s).lineDrive = s.lineDrive := rfl
@[simp] theorem raiseError_segmentEnable (x : ErrorClass) (s : State) : (raiseError x s).segmentEnable = s.segmentEnable := rfl
@[simp] theorem raiseError_txReadyEn (x : ErrorClass) (s : State) : (raiseError x s).txReadyEn = s.txReadyEn := rfl
@[simp] theorem raiseError_txCompleteEn (x : ErrorClass) (s : State) : (raiseError x s).txCompleteEn = s.txCompleteEn := rfl
@[simp] theorem raiseError_heartbeat (x : ErrorClass) (s : State) : (raiseError x s).heartbeat = s.heartbeat := rfl
@[simp] theorem raiseError_rx (x : ErrorClass) (s : State) : (raiseError x s).rx = s.rx := rfl
@[simp] theorem raiseError_tx (x : ErrorClass) (s : State) : (raiseError x s).tx = s.tx := rfl
@[simp] theorem raiseError_fault (x : ErrorClass) (s : State) : (raiseError x s).fault = s.fault := rfl
@[simp] theorem raiseError_trace (x : ErrorClass) (s : State) : (raiseError x s).trace = s.trace := rfl
@[simp] theorem raiseError_stimulus (x : ErrorClass) (s : State) : (raiseError x s).stimulus = s.stimulus := rfl
@[simp] theorem raiseError_appAnswers (x : ErrorClass) (s : State) : (raiseError x s).appAnswers = s.appAnswers := rfl
@[simp] theorem raiseError_appCalls (x : ErrorClass) (s : State) : (raiseError x s).appCalls = s.appCalls := rfl

@[simp] theorem raiseWhen_cfg (c : Bool) (x : ErrorClass) (s : State) : (raiseWhen c x s).cfg = s.cfg := by cases c <;> simp [raiseWhen]
@[simp] theorem raiseWhen_rxOffset (c : Bool) (x : ErrorClass) (s : State) : (raiseWhen c x s).rxOffset = s.rxOffset := by cases c <;> simp [raiseWhen]
@[simp] theorem raiseWhen_txLen (c : Bool) (x : ErrorClass) (s : State) : (raiseWhen c x s).txLen = s.txLen := by cases c <;> simp [raiseWhen]
@[simp] theorem raiseWhen_txOffset (c : Bool) (x : ErrorClass) (s : State) : (raiseWhen c x s).txOffset = s.txOffset := by cases c <;> simp [raiseWhen]
@[simp] theorem raiseWhen_peLen (c : Bool) (x : ErrorClass) (s : State) : (raiseWhen c x s).peLen = s.peLen := by cases c <;> simp [raiseWhen]
@[simp] theorem raiseWhen_hbDiv (c : Bool) (x : ErrorClass) (s : State) : (raiseWhen c x s).hbDiv = s.hbDiv := by cases c <;> simp [raiseWhen]
@[simp] theorem raiseWhen_pePhase (c : Bool) (x : ErrorClass) (s : State) : (raiseWhen c x s).pePhase = s.pePhase := by cases c <;> simp [raiseWhen]
@[simp] theorem raiseWhen_overflowFlag (c : Bool) (x : ErrorClass) (s : State) : (raiseWhen c x s).overflowFlag = s.overflowFlag := by cases c <;> simp [raiseWhen]
@[simp] theorem raiseWhen_lostFlag (c : Bool) (x : ErrorClass) (s : State) : (raiseWhen c x s).lostFlag = s.lostFlag := by cases c <;> simp [raiseWhen]
@[simp] theorem raiseWhen_heartbeatSuppress (c : Bool) (x : ErrorClass) (s : State) : (raiseWhen c x s).heartbeatSuppress = s.heartbeatSuppress := by cases c <;> simp [raiseWhen]
@[simp] theorem raiseWhen_timerArmed (c : Bool) (x : ErrorClass) (s : State) : (raiseWhen c x s).timerArmed = s.timerArmed := by cases c <;> simp [raiseWhen]
@[simp] theorem raiseWhen_pendingLen (c : Bool) (x : ErrorClass) (s : State) : (raiseWhen c x s).pendingLen = s.pendingLen := by cases c <;> simp [raiseWhen]
@[simp] theorem raiseWhen_myAddress (c : Bool) (x : ErrorClass) (s : State) : (raiseWhen c x s).myAddress = s.myAddress := by cases c <;> simp [raiseWhen]
@[simp] theorem raiseWhen_cntCorrect (c : Bool) (x : ErrorClass) (s : State) : (raiseWhen c x s).cntCorrect = s.cntCorrect := by cases c <;> simp [raiseWhen]
@[simp] theorem raiseWhen_cntOverflow (c : Bool) (x : ErrorClass) (s : State) : (raiseWhen c x s).cntOverflow = s.cntOverflow + (if c = true ∧ x = .bufferOverflow then 1 else 0) := by cases c <;> simp [raiseWhen]
@[simp] theorem raiseWhen_cntLost (c : Bool) (x : ErrorClass) (s : State) : (raiseWhen c x s).cntLost = s.cntLost + (if c = true ∧ x = .packetLost then 1 else 0) := by cases c <;> simp [raiseWhen]
@[simp] theorem raiseWhen_cntMismatch (c : Bool) (x : ErrorClass) (s : State) : (raiseWhen c x s).cntMismatch = s.cntMismatch + (if c = true ∧ x = .checksumMismatch then 1 else 0) := by cases c <;> simp [raiseWhen]
@[simp] theorem raiseWhen_uptime (c : Bool) (x : ErrorClass) (s : State) : (raiseWhen c x s).uptime = s.uptime := by cases c <;> simp [raiseWhen]
@[simp] theorem raiseWhen_rxEnable (c : Bool) (x : ErrorClass) (s : State) : (raiseWhen c x s).rxEnable = s.rxEnable := by cases c <;> simp [raiseWhen]
@[simp] theorem raiseWhen_lineDrive (c : Bool) (x : ErrorClass) (s : State) : (raiseWhen c x s).lineDrive = s.lineDrive := by cases c <;> simp [raiseWhen]
@[simp] theorem raiseWhen_segmentEnable (c : Bool) (x : ErrorClass) (s : State) : (raiseWhen c x s).segmentEnable = s.segmentEnable := by cases c <;> simp [raiseWhen]
@[simp] theorem raiseWhen_txReadyEn (c : Bool) (x : ErrorClass) (s : State) : (raiseWhen c x s).txReadyEn = s.txReadyEn := by cases c <;> simp [raiseWhen]
@[simp] theorem raiseWhen_txCompleteEn (c : Bool) (x : ErrorClass) (s : State) : (raiseWhen c x s).txCompleteEn = s.txCompleteEn := by cases c <;> simp [raiseWhen]
@[simp] theorem raiseWhen_heartbeat (c : Bool) (x : ErrorClass) (s : State) : (raiseWhen c x s).heartbeat = s.heartbeat := by cases c <;> simp [raiseWhen]
@[simp] theorem raiseWhen_rx (c : Bool) (x : ErrorClass) (s : State) : (raiseWhen c x s).rx = s.rx := by cases c <;> simp [raiseWhen]
@[simp] theorem raiseWhen_tx (c : Bool) (x : ErrorClass) (s : State) : (raiseWhen c x s).tx = s.tx := by cases c <;> simp [raiseWhen]
@[simp] theorem raiseWhen_fault (c : Bool) (x : ErrorClass) (s : State) : (raiseWhen c x s).fault = s.fault := by cases c <;> simp [raiseWhen]
@[simp] theorem raiseWhen_trace (c : Bool) (x : ErrorClass) (s : State) : (raiseWhen c x s).trace = s.trace := by cases c <;> simp [raiseWhen]
@[simp] theorem raiseWhen_stimulus (c : Bool) (x : ErrorClass) (s : State) : (raiseWhen c x s).stimulus = s.stimulus := by cases c <;> simp [raiseWhen]
@[simp] theorem raiseWhen_appAnswers (c : Bool) (x : ErrorClass) (s : State) : (raiseWhen c x s).appAnswers = s.appAnswers := by cases c <;> simp [raiseWhen]
@[simp] theorem raiseWhen_appCalls (c : Bool) (x : ErrorClass) (s : State) : (raiseWhen c x s).appCalls = s.appCalls := by cases c <;> simp [raiseWhen]

@[simp] theorem withBuffer_cfg (s : State) (sp : Space) (m : Memory) : (s.withBuffer sp m).cfg = s.cfg := rfl
@[simp] theorem withBuffer_rxOffset (s : State) (sp : Space) (m : Memory) : (s.withBuffer sp m).rxOffset = s.rxOffset := rfl
@[simp] theorem withBuffer_txLen (s : State) (sp : Space) (m : Memory) : (s.withBuffer sp m).txLen = s.txLen := rfl
@[simp] theorem withBuffer_txOffset (s : State) (sp : Space) (m : Memory) : (s.withBuffer sp m).txOffset = s.txOffset := rfl
@[simp] theorem withBuffer_peLen (s : State) (sp : Space) (m : Memory) : (s.withBuffer sp m).peLen = s.peLen := rfl
@[simp] theorem withBuffer_hbDiv (s : State) (sp : Space) (m : Memory) : (s.withBuffer sp m).hbDiv = s.hbDiv := rfl
@[simp] theorem withBuffer_pePhase (s : State) (sp : Space) (m : Memory) : (s.withBuffer sp m).pePhase = s.pePhase := rfl
@[simp] theorem withBuffer_overflowFlag (s : State) (sp : Space) (m : Memory) : (s.withBuffer sp m).overflowFlag = s.overflowFlag := rfl
@[simp] theorem withBuffer_lostFlag (s : State) (sp : Space) (m : Memory) : (s.withBuffer sp m).lostFlag = s.lostFlag := rfl
@[simp] theorem withBuffer_heartbeatSuppress (s : State) (sp : Space) (m : Memory) : (s.withBuffer sp m).heartbeatSuppress = s.heartbeatSuppress := rfl
@[simp] theorem withBuffer_timerArmed (s : State) (sp : Space) (m : Memory) : (s.withBuffer sp m).timerArmed = s.timerArmed := rfl
@[simp] theorem withBuffer_pendingLen (s : State) (sp : Space) (m : Memory) : (s.withBuffer sp m).pendingLen = s.pendingLen := rfl
@[simp] theorem withBuffer_myAddress (s : State) (sp : Space) (m : Memory) : (s.withBuffer sp m).myAddress = s.myAddress := rfl
@[simp] theorem withBuffer_cntCorrect (s : State) (sp : Space) (m : Memory) : (s.withBuffer sp m).cntCorrect = s.cntCorrect := rfl
@[simp] theorem withBuffer_cntOverflow (s : State) (sp : Space) (m : Memory) : (s.withBuffer sp m).cntOverflow = s.cntOverflow := rfl
@[simp] theorem withBuffer_cntLost (s : State) (sp : Space) (m : Memory) : (s.withBuffer sp m).cntLost = s.cntLost := rfl
@[simp] theorem withBuffer_cntMismatch (s : State) (sp : Space) (m : Memory) : (s.withBuffer sp m).cntMismatch = s.cntMismatch := rfl
@[simp] theorem withBuffer_uptime (s : State) (sp : Space) (m : Memory) : (s.withBuffer sp m).uptime = s.uptime := rfl
@[simp] theorem withBuffer_rxEnable (s : State) (sp : Space) (m : Memory) : (s.withBuffer sp m).rxEnable = s.rxEnable := rfl
@[simp] theorem withBuffer_lineDrive (s : State) (sp : Space) (m : Memory) : (s.withBuffer sp m).lineDrive = s.lineDrive := rfl
@[simp] theorem withBuffer_segmentEnable (s : State) (sp : Space) (m : Memory) : (s.withBuffer sp m).segmentEnable = s.segmentEnable := rfl
@[simp] theorem withBuffer_txReadyEn (s : State) (sp : Space) (m : Memory) : (s.withBuffer sp m).txReadyEn = s.txReadyEn := rfl
@[simp] theorem withBuffer_txCompleteEn (s : State) (sp : Space) (m : Memory) : (s.withBuffer sp m).txCompleteEn = s.txCompleteEn := rfl
@[simp] theorem withBuffer_heartbeat (s : State) (sp : Space) (m : Memory) : (s.withBuffer sp m).heartbeat = s.heartbeat := rfl
@[simp] theorem withBuffer_rx (s : State) (sp : Space) (m : Memory) : (s.withBuffer sp m).rx = if sp = .rx then m else s.rx := rfl
@[simp] theorem withBuffer_tx (s : State) (sp : Space) (m : Memory) : (s.withBuffer sp m).tx = if sp = .tx then m else s.tx := rfl
@[simp] theorem withBuffer_fault (s : State) (sp : Space) (m : Memory) : (s.withBuffer sp m).fault = s.fault := rfl
@[simp] theorem withBuffer_trace (s : State) (sp : Space) (m : Memory) : (s.withBuffer sp m).trace = s.trace := rfl
@[simp] theorem withBuffer_stimulus (s : State) (sp : Space) (m : Memory) : (s.withBuffer sp m).stimulus = s.stimulus := rfl
@[simp] theorem withBuffer_appAnswers (s : State) (sp : Space) (m : Memory) : (s.withBuffer sp m).appAnswers = s.appAnswers := rfl
@[simp] theorem withBuffer_appCalls (s : State) (sp : Space) (m : Memory) : (s.withBuffer sp m).appCalls = s.appCalls := rfl

@[simp] theorem advanceRx_cfg (s : State) : (advanceRx s).cfg = s.cfg := rfl
@[simp] theorem advanceRx_rxOffset (s : State) : (advanceRx s).rxOffset = if wrapsNow s then 0 else s.rxOffset + 1 := rfl
@[simp] theorem advanceRx_txLen (s : State) : (advanceRx s).txLen = s.txLen := rfl
@[simp] theorem advanceRx_txOffset (s : State) : (advanceRx s).txOffset = s.txOffset := rfl
@[simp] theorem advanceRx_peLen (s : State) : (advanceRx s).peLen = s.peLen := rfl
@[simp] theorem advanceRx_hbDiv (s : State) : (advanceRx s).hbDiv = s.hbDiv := rfl
@[simp] theorem advanceRx_pePhase (s : State) : (advanceRx s).pePhase = s.pePhase := rfl
@[simp] theorem advanceRx_overflowFlag (s : State) : (advanceRx s).overflowFlag = (s.overflowFlag || wrapsNow s) := rfl
@[simp] theorem advanceRx_lostFlag (s : State) : (advanceRx s).lostFlag = s.lostFlag := rfl
@[simp] theorem advanceRx_heartbeatSuppress (s : State) : (advanceRx s).heartbeatSuppress = s.heartbeatSuppress := rfl
@[simp] theorem advanceRx_timerArmed (s : State) : (advanceRx s).timerArmed = s.timerArmed := rfl
@[simp] theorem advanceRx_pendingLen (s : State) : (advanceRx s).pendingLen = s.pendingLen := rfl
@[simp] theorem advanceRx_myAddress (s : State) : (advanceRx s).myAddress = s.myAddress := rfl
@[simp] theorem advanceRx_cntCorrect (s : State) : (advanceRx s).cntCorrect = s.cntCorrect := rfl
@[simp] theorem advanceRx_cntOverflow (s : State) : (advanceRx s).cntOverflow = s.cntOverflow := rfl
@[simp] theorem advanceRx_cntLost (s : State) : (advanceRx s).cntLost = s.cntLost := rfl
@[simp] theorem advanceRx_cntMismatch (s : State) : (advanceRx s).cntMismatch = s.cntMismatch := rfl
@[simp] theorem advanceRx_uptime (s : State) : (advanceRx s).uptime = s.uptime := rfl
@[simp] theorem advanceRx_rxEnable (s : State) : (advanceRx s).rxEnable = s.rxEnable := rfl
@[simp] theorem advanceRx_lineDrive (s : State) : (advanceRx s).lineDrive = s.lineDrive := rfl
@[simp] theorem advanceRx_segmentEnable (s : State) : (advanceRx s).segmentEnable = s.segmentEnable := rfl
@[simp] theorem advanceRx_txReadyEn (s : State) : (advanceRx s).txReadyEn = s.txReadyEn := rfl
@[simp] theorem advanceRx_txCompleteEn (s : State) : (advanceRx s).txCompleteEn = s.txCompleteEn := rfl
@[simp] theorem advanceRx_heartbeat (s : State) : (advanceRx s).heartbeat = s.heartbeat := rfl
@[simp] theorem advanceRx_rx (s : State) : (advanceRx s).rx = s.rx := rfl
@[simp] theorem advanceRx_tx (s : State) : (advanceRx s).tx = s.tx := rfl
@[simp] theorem advanceRx_fault (s : State) : (advanceRx s).fault = s.fault := rfl
@[simp] theorem advanceRx_trace (s : State) : (advanceRx s).trace = s.trace := rfl
@[simp] theorem advanceRx_stimulus (s : State) : (advanceRx s).stimulus = s.stimulus := rfl
@[simp] theorem advanceRx_appAnswers (s : State) : (advanceRx s).appAnswers = s.appAnswers := rfl
@[simp] theorem advanceRx_appCalls (s : State) : (advanceRx s).appCalls = s.appCalls := rfl

@[simp] theorem claimLine_cfg (n : Nat) (s : State) : (claimLine n s).cfg = s.cfg := rfl
@[simp] theorem claimLine_rxOffset (n : Nat) (s : State) : (claimLine n s).rxOffset = s.rxOffset := rfl
@[simp] theorem claimLine_txLen (n : Nat) (s : State) : (claimLine n s).txLen = n := rfl
@[simp] theorem claimLine_txOffset (n : Nat) (s : State) : (claimLine n s).txOffset = 0 := rfl
@[simp] theorem claimLine_peLen (n : Nat) (s : State) : (claimLine n s).peLen = s.peLen := rfl
@[simp] theorem claimLine_hbDiv (n : Nat) (s : State) : (claimLine n s).hbDiv = s.hbDiv := rfl
@[simp] theorem claimLine_pePhase (n : Nat) (s : State) : (claimLine n s).pePhase = s.pePhase := rfl
@[simp] theorem claimLine_overflowFlag (n : Nat) (s : State) : (claimLine n s).overflowFlag = s.overflowFlag := rfl
@[simp] theorem claimLine_lostFlag (n : Nat) (s : State) : (claimLine n s).lostFlag = s.lostFlag := rfl
@[simp] theorem claimLine_heartbeatSuppress (n : Nat) (s : State) : (claimLine n s).heartbeatSuppress = s.heartbeatSuppress := rfl
@[simp] theorem claimLine_timerArmed (n : Nat) (s : State) : (claimLine n s).timerArmed = s.timerArmed := rfl
@[simp] theorem claimLine_pendingLen (n : Nat) (s : State) : (claimLine n s).pendingLen = s.pendingLen := rfl
@[simp] theorem claimLine_myAddress (n : Nat) (s : State) : (claimLine n s).myAddress = s.myAddress := rfl
@[simp] theorem claimLine_cntCorrect (n : Nat) (s : State) : (claimLine n s).cntCorrect = s.cntCorrect := rfl
@[simp] theorem claimLine_cntOverflow (n : Nat) (s : State) : (claimLine n s).cntOverflow = s.cntOverflow := rfl
@[simp] theorem claimLine_cntLost (n : Nat) (s : State) : (claimLine n s).cntLost = s.cntLost := rfl
@[simp] theorem claimLine_cntMismatch (n : Nat) (s : State) : (claimLine n s).cntMismatch = s.cntMismatch := rfl
@[simp] theorem claimLine_uptime (n : Nat) (s : State) : (claimLine n s).uptime = s.uptime := rfl
@[simp] theorem claimLine_rxEnable (n : Nat) (s : State) : (claimLine n s).rxEnable = false := rfl
@[simp] theorem claimLine_lineDrive (n : Nat) (s : State) : (claimLine n s).lineDrive = true := rfl
@[simp] theorem claimLine_segmentEnable (n : Nat) (s : State) : (claimLine n s).segmentEnable = s.segmentEnable := rfl
@[simp] theorem claimLine_txReadyEn (n : Nat) (s : State) : (claimLine n s).txReadyEn = true := rfl
@[simp] theorem claimLine_txCompleteEn (n : Nat) (s : State) : (claimLine n s).txCompleteEn = s.txCompleteEn := rfl
@[simp] theorem claimLine_heartbeat (n : Nat) (s : State) : (claimLine n s).heartbeat = s.heartbeat := rfl
@[simp] theorem claimLine_rx (n : Nat) (s : State) : (claimLine n s).rx = s.rx := rfl
@[simp] theorem claimLine_tx (n : Nat) (s : State) : (claimLine n s).tx = s.tx := rfl
@[simp] theorem claimLine_fault (n : Nat) (s : State) : (claimLine n s).fault = s.fault := rfl
@[simp] theorem claimLine_trace (n : Nat) (s : State) : (claimLine n s).trace = s.trace ++ (if s.rxEnable = false then [] else [.rxEnable false]) ++ [.lineDrive true] := rfl
@[simp] theorem claimLine_stimulus (n : Nat) (s : State) : (claimLine n s).stimulus = s.stimulus := rfl
@[simp] theorem claimLine_appAnswers (n : Nat) (s : State) : (claimLine n s).appAnswers = s.appAnswers := rfl
@[simp] theorem claimLine_appCalls (n : Nat) (s : State) : (claimLine n s).appCalls = s.appCalls := rfl

end Sys2Proof.Machine
end

