-- ==== Sys2Proof/Laws/Ops.lean ====
section
/-! SUPPORT. One lemma per shared operation saying everything it can do: buffer access, performing an operation, the
transmitter's start, result handling, one step. -/

namespace Sys2Proof.Machine

@[simp] theorem buffer_rx (s : State) : s.buffer .rx = s.rx := rfl

@[simp] theorem buffer_tx (s : State) : s.buffer .tx = s.tx := rfl

@[simp] theorem buffer_withBuffer (s : State) (sp : Space) (m : Memory) : (s.withBuffer sp m).buffer sp = m := by
  cases sp <;> rfl

@[simp] theorem withBuffer_withBuffer (s : State) (sp : Space) (m m' : Memory) :
    (s.withBuffer sp m).withBuffer sp m' = s.withBuffer sp m' := by
  cases sp <;> rfl

@[simp] theorem withBuffer_buffer (s : State) (sp : Space) : s.withBuffer sp (s.buffer sp) = s := by
  cases sp <;> rfl

/-- A byte read answers exactly the written byte of an index inside the buffer. -/
theorem readByte_eq_ok {s : State} {sp : Space} {i : Nat} {b : Byte} :
    readByte s sp i = .ok b ↔ i < s.cfg.bufSize ∧ (s.buffer sp).read i = some b := by
  unfold readByte
  split
  · rename_i h
    cases hr : (s.buffer sp).read i <;> simp [h]
  · rename_i h
    simp [h]

/-- A byte write succeeds exactly inside the buffer. -/
theorem writeByte_eq_ok {s t : State} {sp : Space} {i : Nat} {b : Byte} :
    writeByte s sp i b = .ok t ↔ i < s.cfg.bufSize ∧ t = s.withBuffer sp ((s.buffer sp).write i b) := by
  unfold writeByte
  split
  · rename_i h
    simp [h, eq_comm]
  · rename_i h
    simp [h]

/-- A block read answers exactly the bytes of an all-written block inside the buffer. -/
theorem memRead_of_bytes (s : State) (sp : Space) : ∀ (bs : List Byte) (a : Nat), a + bs.length ≤ s.cfg.bufSize →
    (∀ k < bs.length, (s.buffer sp).read (a + k) = bs[k]?) → memRead s sp a bs.length = .ok bs := by
  intro bs
  induction bs with
  | nil => exact fun _ _ _ => rfl
  | cons b rest ih =>
    intro a ha hb
    simp only [List.length_cons] at ha hb
    have h0 : readByte s sp a = .ok b := readByte_eq_ok.2 ⟨by omega, by simpa using hb 0 (by omega)⟩
    have h1 : memRead s sp (a + 1) rest.length = .ok rest := by
      refine ih (a + 1) (by omega) fun k hk => ?_
      have := hb (k + 1) (by omega)
      rw [List.getElem?_cons_succ] at this
      rw [← this]
      congr 1
      omega
    simp only [List.length_cons, memRead, h0, h1]

/-- What a block read answers, byte by byte. -/
theorem memRead_eq_ok {s : State} {sp : Space} : ∀ {n a : Nat} {bs : List Byte}, memRead s sp a n = .ok bs →
    bs.length = n ∧ (∀ k < n, (s.buffer sp).read (a + k) = bs[k]?) ∧ (0 < n → a + n ≤ s.cfg.bufSize) := by
  intro n
  induction n with
  | zero =>
    intro a bs h
    cases h
    simp
  | succ n ih =>
    intro a bs h
    rw [memRead] at h
    cases h0 : readByte s sp a with
    | error e => simp [h0] at h
    | ok b =>
      cases h1 : memRead s sp (a + 1) n with
      | error e => simp [h0, h1] at h
      | ok rest =>
        simp only [h0, h1, Except.ok.injEq] at h
        subst h
        obtain ⟨hlt, hb⟩ := readByte_eq_ok.1 h0
        obtain ⟨hl, hr, hin⟩ := ih h1
        refine ⟨by simp [hl], fun k hk => ?_, fun _ => ?_⟩
        · cases k with
          | zero => simpa using hb
          | succ k =>
            rw [List.getElem?_cons_succ, ← hr k (by omega)]
            congr 1
            omega
        · rcases Nat.eq_zero_or_pos n with rfl | hn
          · omega
          · have := hin hn
            omega

/-- A block that has been written and lies inside the buffer can be read. -/
theorem memRead_of_written {s : State} {sp : Space} : ∀ {n a : Nat}, a + n ≤ s.cfg.bufSize →
    (∀ k < n, ((s.buffer sp).read (a + k)).isSome = true) → ∃ bs, memRead s sp a n = .ok bs := by
  intro n
  induction n with
  | zero => exact fun _ _ => ⟨[], rfl⟩
  | succ n ih =>
    intro a ha hw
    obtain ⟨b, hb⟩ := Option.isSome_iff_exists.1 (hw 0 (by omega))
    have h0 : readByte s sp a = .ok b := readByte_eq_ok.2 ⟨by omega, by simpa using hb⟩
    obtain ⟨rest, h1⟩ := ih (a := a + 1) (by omega) fun k hk => by
      have := hw (k + 1) (by omega)
      rwa [show a + (k + 1) = a + 1 + k by omega] at this
    exact ⟨b :: rest, by simp only [memRead, h0, h1]⟩

/-- A block write inside the buffer succeeds and is one update of that buffer. -/
theorem memWrite_eq (sp : Space) : ∀ (bs : List Byte) (s : State) (a : Nat), a + bs.length ≤ s.cfg.bufSize →
    memWrite s sp a bs = .ok (s.withBuffer sp ((s.buffer sp).writeAll a bs)) := by
  intro bs
  induction bs with
  | nil => intro s a _; simp [memWrite, Memory.writeAll]
  | cons b rest ih =>
    intro s a ha
    simp only [List.length_cons] at ha
    have h0 : writeByte s sp a b = .ok (s.withBuffer sp ((s.buffer sp).write a b)) :=
      writeByte_eq_ok.2 ⟨by omega, rfl⟩
    simp only [memWrite, h0]
    rw [ih _ _ (by simpa using by omega)]
    simp [Memory.writeAll]

/-- Whatever a block write answers is one update of that buffer. -/
theorem memWrite_eq_ok {sp : Space} : ∀ {bs : List Byte} {s t : State} {a : Nat}, memWrite s sp a bs = .ok t →
    t = s.withBuffer sp ((s.buffer sp).writeAll a bs) ∧ (bs ≠ [] → a + bs.length ≤ s.cfg.bufSize) := by
  intro bs
  induction bs with
  | nil =>
    intro s t a h
    cases h
    simp [Memory.writeAll]
  | cons b rest ih =>
    intro s t a h
    cases h0 : writeByte s sp a b with
    | error e => simp [memWrite, h0] at h
    | ok s' =>
      simp only [memWrite, h0] at h
      obtain ⟨hlt, rfl⟩ := writeByte_eq_ok.1 h0
      obtain ⟨rfl, hin⟩ := ih h
      refine ⟨by simp [Memory.writeAll], fun _ => ?_⟩
      rcases rest with _ | ⟨c, rest⟩
      · simpa using hlt
      · have := hin (by simp)
        simp only [withBuffer_cfg, List.length_cons] at this ⊢
        omega

/-- An operation answers a next state exactly when the device is not marked, the operation is enabled and its
effect succeeds (R12, R51). -/
theorem perform_eq_next {en : Bool} {s t : State} {f : State → Except Fault State} :
    perform en s f = .next t ↔ s.fault = none ∧ en = true ∧ f s = .ok t := by
  unfold perform
  cases hf : s.fault with
  | some m => simp
  | none => cases en <;> cases hr : f s <;> simp [toOutcome]

/-- An enabled operation of an unmarked device is its effect. -/
theorem perform_enabled {en : Bool} {s : State} {f : State → Except Fault State} (hf : s.fault = none)
    (he : en = true) : perform en s f = toOutcome (f s) := by
  simp [perform, hf, he]

/-- What stops an operation: a mark, a false enabling condition, or its effect's own access fault. -/
theorem perform_eq_fault {en : Bool} {s : State} {f : State → Except Fault State} {e : Fault} :
    perform en s f = .fault e ↔ (∃ m, s.fault = some m ∧ e = .marked m) ∨
      (s.fault = none ∧ en = false ∧ e = .notEnabled) ∨ (s.fault = none ∧ en = true ∧ f s = .error e) := by
  unfold perform
  cases hf : s.fault with
  | some m => simp [eq_comm]
  | none => cases en <;> cases hr : f s <;> simp [toOutcome, eq_comm]

/-- No operation is refused but `RESET`. -/
theorem perform_ne_refused {en : Bool} {s : State} {f : State → Except Fault State} {r : Refusal} :
    perform en s f ≠ .refused r := by
  unfold perform
  split
  · simp
  · split
    · unfold toOutcome
      split <;> simp
    · simp

/-- Everything `TX_START` can do: set one of the two marks, or write the reply frame and claim the line
(R270, R272, R273). -/
theorem txStart_eq_ok {r : List Byte} {s t : State} (h : txStart r s = .ok t) :
    (s.cfg.maxPayload < r.length ∧ t = { s with fault := some .replyTooLong }) ∨
    (r.length ≤ s.cfg.maxPayload ∧ s.txState ≠ .idle ∧ t = { s with fault := some .txOverlap }) ∨
    (r.length ≤ s.cfg.maxPayload ∧ s.txState = .idle ∧
      t = claimLine (s.cfg.addrLen + r.length + s.cfg.csumLen)
        (s.withBuffer .tx (s.tx.writeAll 0 (replyFrame s.cfg s.myAddress r)))) := by
  unfold txStart at h
  split at h
  · rename_i h1
    cases h
    exact .inl ⟨h1, rfl⟩
  · rename_i h1
    split at h
    · rename_i h2
      cases h
      exact .inr (.inl ⟨Nat.le_of_not_lt h1, h2, rfl⟩)
    · rename_i h2
      cases hw : memWrite s .tx 0 (replyFrame s.cfg s.myAddress r) with
      | error e => simp [hw] at h
      | ok s' =>
        simp only [hw, Except.ok.injEq] at h
        obtain ⟨rfl, -⟩ := memWrite_eq_ok hw
        exact .inr (.inr ⟨Nat.le_of_not_lt h1, not_not.1 h2, h.symm⟩)

/-- A reply that fits, with the transmitter free, starts (R270). -/
theorem txStart_of_fits {r : List Byte} {s : State} (hc : s.cfg.Valid) (hr : r.length ≤ s.cfg.maxPayload)
    (ht : s.txState = .idle) :
    txStart r s = .ok (claimLine (s.cfg.addrLen + r.length + s.cfg.csumLen)
      (s.withBuffer .tx (s.tx.writeAll 0 (replyFrame s.cfg s.myAddress r)))) := by
  have hlen : 0 + (replyFrame s.cfg s.myAddress r).length ≤ s.cfg.bufSize := by
    obtain ⟨⟨-, h1, h2, -⟩, -⟩ := hc
    simp only [replyFrame_length, Config.maxPayload] at hr ⊢
    omega
  have hw := memWrite_eq .tx _ s 0 hlen
  simp only [txStart, Nat.not_lt.2 hr, if_false, ht, ne_eq, not_true, hw, buffer_tx]

/-- `PE_DISPATCH` with a reply that fits, from an unmarked device whose transmitter is free, ends as `Replies` says
(R175, R178, R270). -/
theorem finishDispatch_reply {r : List Byte} {s : State} (hc : s.cfg.Valid) (hf : s.fault = none)
    (hr : r.length ≤ s.cfg.maxPayload) (ht : s.txState = .idle) :
    ∃ t, finishDispatch (s, .reply r) = .ok t ∧ Replies s t (replyFrame s.cfg s.myAddress r) := by
  have hl : s.cfg.csumLen = 1 := hc.1.2.1
  refine ⟨_, by simp only [finishDispatch, txStart_of_fits hc hr ht]; rfl, ?_, fun j => ?_⟩
  · cases h : s.rxEnable <;> simp [endDispatch, claimLine, emit, setRxEnable, State.withBuffer, hf, hl, h]
  · simp [endDispatch, hf, Memory.read_writeAll]

/-- `PE_DISPATCH` with no answer always ends as `resumed` says (R178). -/
theorem finishDispatch_noAnswer (s : State) : finishDispatch (s, .noAnswer) = .ok (resumed s) := rfl

/-- A device at rest meets the discipline (R366, R373). -/
theorem AtRest.disciplined {s : State} (h : AtRest s) : Disciplined s :=
  ⟨fun _ => h.2.2.1, fun hp => by simp [h.2.1] at hp⟩

/-- A device at rest is trivially half-duplex (R276, R373). -/
theorem AtRest.halfDuplex {s : State} (h : AtRest s) : HalfDuplex s := fun hn => absurd h.2.2.1 hn

/-- Everything a step can do: wait, refuse an unreadable code, or perform the operation it reads. -/
theorem step_cases (s : State) :
    (s.stimulus = [] ∧ step s = .next s) ∨
    (∃ e, s.stimulus ≠ [] ∧ decodeEvent s.stimulus = .error e ∧ step s = .refused (.undecodable e)) ∨
    (∃ i rest, s.stimulus ≠ [] ∧ decodeEvent s.stimulus = .ok (i, rest) ∧
      step s = exec i { s with stimulus := rest }) := by
  unfold step fetch
  cases hs : s.stimulus with
  | nil => exact .inl ⟨rfl, rfl⟩
  | cons d ds =>
    cases hd : decodeEvent (d :: ds) with
    | error e => exact .inr (.inl ⟨e, by simp, rfl, by simp⟩)
    | ok p => exact .inr (.inr ⟨p.1, p.2, by simp, rfl, by simp⟩)

end Sys2Proof.Machine
end

