-- ==== Sys2Proof/Laws/Handlers.lean ====
section
/-! SUPPORT. What a frame command's handler may change, said once for all of them, and what a dispatch may end in
(42_processing_engine.md R175, 43_base_requests.md, 44_broadcast_negotiation.md). -/

namespace Sys2Proof.Machine

/-- Everything a handler may do: it writes only the bus address (to 0 or to an accepted new address, R33), the segment
enable, the packet counters, the trace and the application's inputs. -/
structure HandlerEffect (s t : State) : Prop where
  frame : t = { s with
    myAddress := t.myAddress
    segmentEnable := t.segmentEnable
    cntCorrect := t.cntCorrect
    cntOverflow := t.cntOverflow
    cntLost := t.cntLost
    cntMismatch := t.cntMismatch
    trace := t.trace
    appAnswers := t.appAnswers
    appCalls := t.appCalls }
  address : t.myAddress = s.myAddress ∨ t.myAddress = 0 ∨ newAddressOk s.cfg t.myAddress = true
  overflow : t.cntOverflow = s.cntOverflow ∨ t.cntOverflow = 0
  lost : t.cntLost = s.cntLost ∨ t.cntLost = 0
  events : ∃ evs, t.trace = s.trace ++ evs

/-- A handler that leaves the state alone. -/
theorem HandlerEffect.refl (s : State) : HandlerEffect s s := ⟨rfl, .inl rfl, .inl rfl, .inl rfl, [], by simp⟩

/-- A handler that only emits one event. -/
theorem HandlerEffect.emit (e : OutEvent) (s : State) : HandlerEffect s (emit e s) :=
  ⟨rfl, .inl rfl, .inl rfl, .inl rfl, [e], rfl⟩

/-- The rejection of a malformed broadcast leaves the state alone (R305). -/
@[simp] theorem raiseError_malformed (s : State) : raiseError .malformedBroadcast s = s := by
  simp [raiseError]

/-- The rejection of a foreign address leaves the state alone (R304). -/
@[simp] theorem raiseError_foreign (s : State) : raiseError .addressMismatch s = s := by
  simp [raiseError]

/-- The application request handler's effect, whichever way its answer is found. -/
theorem handleAppRequest_effect (p : List Byte) (s : State) : HandlerEffect s (handleAppRequest p s).1 := by
  unfold handleAppRequest askApplication
  split
  · simp only [emit_appAnswers]
    cases s.appAnswers <;> exact ⟨rfl, .inl rfl, .inl rfl, .inl rfl, [_], rfl⟩
  · exact .refl s

/-- Set-address's effect. -/
theorem handleBcUuidSetAddress_effect (a : Addr) (s : State) :
    HandlerEffect s (handleBcUuidSetAddress a s).1 := by
  unfold handleBcUuidSetAddress
  split
  · rename_i h
    exact ⟨rfl, .inr (.inr h), .inl rfl, .inl rfl, [], by simp⟩
  · exact .refl s

/-- The address-clearing commands' effect (R243, R249). -/
theorem clearAddress_effect (s : State) : HandlerEffect s { s with myAddress := 0 } :=
  ⟨rfl, .inr (.inl rfl), .inl rfl, .inl rfl, [], by simp⟩

/-- The counter reset's effect (R210). -/
theorem handleResetCounts_effect (s : State) : HandlerEffect s (handleResetCounts s).1 :=
  ⟨rfl, .inl rfl, .inr rfl, .inr rfl, [], by simp [handleResetCounts]⟩

/-- The segment commands' effect (R247, R248). -/
theorem setSegment_effect (v : Bool) (s : State) :
    HandlerEffect s (Machine.emit (.segment v) { s with segmentEnable := v }) :=
  ⟨rfl, .inl rfl, .inl rfl, .inl rfl, [_], rfl⟩

/-- A malformed broadcast's effect. -/
theorem malformed_effect (s : State) : HandlerEffect s (malformed s).1 := by
  simpa [malformed] using HandlerEffect.refl s

/-- The bus-assertion request's effect. -/
theorem handleBcBusAssert_effect (m : Byte) (bytes : List Byte) (s : State) :
    HandlerEffect s (handleBcBusAssert m bytes s).1 := by
  unfold handleBcBusAssert
  split
  · dsimp only
    split
    · exact .emit _ s
    · exact .refl s
  · exact malformed_effect s

/-- The unicast dispatcher's effect (R199). -/
theorem processRequest_effect (p : List Byte) (s : State) : HandlerEffect s (processRequest p s).1 := by
  unfold processRequest
  split
  · exact .refl s
  · split
    · split
      · exact .refl s
      · unfold processBase
        repeat' split
        all_goals first | exact .refl s | exact handleResetCounts_effect s
      · exact .refl s
    · exact handleAppRequest_effect _ s

/-- The UUID-addressed dispatcher's effect (R230). -/
theorem processUuid_effect (ops : List Byte) (s : State) : HandlerEffect s (processUuid ops s).1 := by
  unfold processUuid
  repeat' split
  all_goals first
    | exact .refl s
    | exact malformed_effect s
    | exact clearAddress_effect s
    | exact handleBcUuidSetAddress_effect _ s

/-- The broadcast dispatcher's effect (R230). -/
theorem processBroadcast_effect (p : List Byte) (s : State) : HandlerEffect s (processBroadcast p s).1 := by
  unfold processBroadcast processAllDevices
  repeat' split
  all_goals first
    | exact .emit _ s
    | exact malformed_effect s
    | exact clearAddress_effect s
    | exact setSegment_effect _ s
    | exact processUuid_effect _ s
    | exact handleBcBusAssert_effect _ _ s

/-- The classification's effect (R175). -/
theorem processFrame_effect (a : Addr) (p : List Byte) (s : State) : HandlerEffect s (processFrame a p s).1 := by
  unfold processFrame
  split
  · exact processBroadcast_effect p s
  · exact processRequest_effect p s

/-- Everything a dispatch can end in: reception resumed, a mark set, or the reply frame written and the line claimed
(R175, R178, R272, R273). -/
theorem finishDispatch_eq_ok {u t : State} {r : Result} (hf : u.fault = none) (h : finishDispatch (u, r) = .ok t) :
    (r = .noAnswer ∧ t = resumed u) ∨
    (∃ m, t = { u with fault := some m } ∧ (m = .txOverlap → u.txState ≠ .idle)) ∨
    (∃ p, r = .reply p ∧ p.length ≤ u.cfg.maxPayload ∧ u.txState = .idle ∧
      t = { claimLine (u.cfg.addrLen + p.length + u.cfg.csumLen)
              (u.withBuffer .tx (u.tx.writeAll 0 (replyFrame u.cfg u.myAddress p))) with pePhase := .idle }) := by
  cases r with
  | noAnswer =>
    cases h
    exact .inl ⟨rfl, rfl⟩
  | reply p =>
    simp only [finishDispatch] at h
    cases ht : txStart p u with
    | error e => simp [ht] at h
    | ok s' =>
      simp only [ht, Except.ok.injEq] at h
      rcases txStart_eq_ok ht with ⟨-, rfl⟩ | ⟨-, h2, rfl⟩ | ⟨h1, h2, rfl⟩
      · exact .inr (.inl ⟨.replyTooLong, by rw [← h]; rfl, by simp⟩)
      · exact .inr (.inl ⟨.txOverlap, by rw [← h]; rfl, fun _ => h2⟩)
      · refine .inr (.inr ⟨p, rfl, h1, h2, ?_⟩)
        rw [← h]
        simp [endDispatch, hf]

end Sys2Proof.Machine
end

