-- ==== Sys2Proof/Laws/Operations.lean ====
section
/-! SUPPORT. Everything each operation can do, said once: the inversion lemma of every effect (41_frame_receiver.md to
46_diagnostics.md), and of the dispatch of a frame command. -/

namespace Sys2Proof.Machine

/-- Everything `RX_BYTE` can do (R150). -/
theorem receiveByte_eq_ok {b : Byte} {s t : State} (h : receiveByte b s = .ok t) :
    (s.rxEnable = false ∧ t = s) ∨
    (s.rxEnable = true ∧ s.rxOffset < s.cfg.bufSize ∧
      t = { s with
            rx := s.rx.write s.rxOffset b
            pendingLen := 0
            lostFlag := s.lostFlag || s.pendingLen ≠ 0
            rxOffset := if wrapsNow s then 0 else s.rxOffset + 1
            overflowFlag := s.overflowFlag || wrapsNow s
            timerArmed := true
            trace := s.trace ++ [.timerRestart] }) := by
  unfold receiveByte at h
  split at h
  · rename_i he
    cases hw : writeByte (supersede s) .rx s.rxOffset b with
    | error e => simp [hw] at h
    | ok s' =>
      simp only [hw, Except.ok.injEq] at h
      obtain ⟨hlt, rfl⟩ := writeByte_eq_ok.1 hw
      subst h
      exact .inr ⟨he, hlt, rfl⟩
  · rename_i he
    cases h
    exact .inl ⟨by simpa using he, rfl⟩

/-- A byte offered inside the buffer is always received (R150). -/
theorem receiveByte_of_enabled {b : Byte} {s : State} (he : s.rxEnable = true) (hlt : s.rxOffset < s.cfg.bufSize) :
    receiveByte b s = .ok { s with
      rx := s.rx.write s.rxOffset b
      pendingLen := 0
      lostFlag := s.lostFlag || s.pendingLen ≠ 0
      rxOffset := if wrapsNow s then 0 else s.rxOffset + 1
      overflowFlag := s.overflowFlag || wrapsNow s
      timerArmed := true
      trace := s.trace ++ [.timerRestart] } := by
  have hw : writeByte (supersede s) .rx s.rxOffset b =
      .ok ((supersede s).withBuffer .rx (((supersede s).buffer .rx).write s.rxOffset b)) :=
    writeByte_eq_ok.2 ⟨hlt, rfl⟩
  rw [receiveByte, if_pos he, hw]
  rfl

/-- The deferred counters and flags of `RX_TIMEOUT`, field by field (R155, R157). -/
theorem flushDeferred_eq (s : State) : flushDeferred s = { s with
    timerArmed := false
    cntLost := if s.lostFlag = true then s.cntLost + 1 else s.cntLost
    lostFlag := false
    cntOverflow := if s.overflowFlag = true then s.cntOverflow + 1 else s.cntOverflow } := by
  cases h1 : s.lostFlag <;> cases h2 : s.overflowFlag <;>
    simp [flushDeferred, raiseWhen, raiseError, h1, h2]

/-- Everything `RX_TIMEOUT` can do: `accepted` is the outcome of the acceptance test (R155, R156, R158). -/
theorem endBurst_eq_ok {s t : State} (h : endBurst s = .ok t) :
    ∃ accepted : Bool, (accepted = true → s.overflowFlag = false ∧ 1 < s.rxOffset) ∧
      t = { s with
            timerArmed := false
            cntLost := if s.lostFlag = true then s.cntLost + 1 else s.cntLost
            lostFlag := false
            cntOverflow := if s.overflowFlag = true then s.cntOverflow + 1 else s.cntOverflow
            pendingLen := if accepted = true then s.rxOffset else s.pendingLen
            heartbeatSuppress := accepted || s.heartbeatSuppress
            rxOffset := 0
            overflowFlag := false } := by
  unfold endBurst judgeFrame at h
  split at h
  · cases h
  · rename_i s' hj
    cases h
    split at hj
    · rename_i hl
      rw [flushDeferred_eq] at hl
      simp only [lengthAccepted, Bool.and_eq_true, Bool.not_eq_true', decide_eq_true_eq] at hl
      split at hj
      · cases hj
      · split at hj <;> cases hj
        · exact ⟨true, fun _ => hl, by rw [flushDeferred_eq]; simp [rearm, acceptFrame]⟩
        · exact ⟨false, by simp, by rw [flushDeferred_eq]; simp [rearm]⟩
    · cases hj
      exact ⟨false, by simp, by rw [flushDeferred_eq]; simp [rearm]⟩

/-- `RX_TIMEOUT` stops only where the leading address field cannot be read. -/
theorem endBurst_eq_error {s : State} {e : Fault} (h : endBurst s = .error e) :
    1 < s.rxOffset ∧ memRead (flushDeferred s) .rx 0 s.cfg.addrLen = .error e := by
  unfold endBurst judgeFrame at h
  split at h
  · rename_i hj
    cases h
    split at hj
    · rename_i hl
      split at hj
      · rename_i hm
        cases hj
        rw [flushDeferred_eq] at hl hm ⊢
        simp only [lengthAccepted, Bool.and_eq_true, decide_eq_true_eq] at hl
        exact ⟨hl.2, hm⟩
      · split at hj <;> cases hj
    · cases hj
  · cases h

/-- Everything `PE_VERIFY` can do (R173). -/
theorem verifyFrame_eq_ok {s t : State} (h : verifyFrame s = .ok t) :
    ∃ f, memRead s .rx 0 s.peLen = .ok f ∧
      ((csumOk s.cfg f = true ∧ t = confirmFrame s) ∨ (csumOk s.cfg f = false ∧ t = rejectFrame s)) := by
  unfold verifyFrame at h
  split at h
  · cases h
  · rename_i f hf
    refine ⟨f, hf, ?_⟩
    cases hc : csumOk s.cfg f <;> simp_all

/-- The verify function refuses a frame with no room for address and checksum (R144). -/
theorem le_length_of_csumOk {c : Config} {f : List Byte} (h : csumOk c f = true) :
    c.addrLen + c.csumLen ≤ f.length := by
  unfold csumOk at h
  split at h
  · cases h
  · omega

/-- Everything `TX_READY` can do (R274). -/
theorem sendByte_eq_ok {s t : State} (h : sendByte s = .ok t) :
    ∃ b, s.txOffset < s.cfg.bufSize ∧ s.tx.read s.txOffset = some b ∧ t = advanceTx (emit (.txByte b) s) := by
  unfold sendByte at h
  split at h
  · cases h
  · rename_i b hb
    cases h
    obtain ⟨h1, h2⟩ := readByte_eq_ok.1 hb
    exact ⟨b, h1, h2, rfl⟩

/-- Everything `PE_DISPATCH` can do (R175). -/
theorem dispatchFrame_eq_ok {s t : State} (h : dispatchFrame s = .ok t) :
    ∃ a p, latchedFrame s = .ok (a, p) ∧ finishDispatch (processFrame a p s) = .ok t := by
  unfold dispatchFrame at h
  split at h
  · cases h
  · rename_i a p hl
    exact ⟨a, p, hl, h⟩

/-- A dispatched command's next state comes from a handler's effect and the result handling. -/
theorem dispatchCommand_eq_next {i : Instr} {h : Handler} {s t : State} (he : HandlerEffect s (h s).1)
    (hn : dispatchCommand i h s = .next t) :
    s.fault = none ∧ enabledWhen i s = true ∧ HandlerEffect s (h s).1 ∧ finishDispatch ((h s).1, (h s).2) = .ok t := by
  obtain ⟨h1, h2, h3⟩ := perform_eq_next.1 hn
  exact ⟨h1, h2, he, h3⟩

/-- A reply that starts the transmitter never meets the end of a buffer, so the result handling of a legal
configuration never stops (R272). -/
theorem finishDispatch_total {u : State} (hc : u.cfg.Valid) (r : Result) : ∃ t, finishDispatch (u, r) = .ok t := by
  cases r with
  | noAnswer => exact ⟨_, rfl⟩
  | reply p =>
    by_cases h1 : u.cfg.maxPayload < p.length
    · exact ⟨_, by simp [finishDispatch, txStart, h1]; rfl⟩
    · by_cases h2 : u.txState = .idle
      · exact ⟨_, by simp only [finishDispatch, txStart_of_fits hc (Nat.le_of_not_lt h1) h2]; rfl⟩
      · exact ⟨_, by simp [finishDispatch, txStart, h1, h2]; rfl⟩

/-- A frame command answers a next state only from `PE_DISPATCH`, through a handler's effect (log 8). -/
theorem exec_frameCommand_eq_next {i : Instr} {s t : State} (hn : exec i s = .next t)
    (hi : (∀ ds, encode s.cfg i ≠ .event ds) ∨ i = .peDispatch) :
    s.fault = none ∧ s.pePhase = .dispatch ∧
      ∃ u r, HandlerEffect s u ∧ finishDispatch (u, r) = .ok t ∧
        (u.myAddress = s.myAddress ∨ i = .peDispatch ∨ i = .bcUuidResetAddress ∨ i = .bcResetAllAddresses ∨
          ∃ a, i = .bcUuidSetAddress a ∧ u.myAddress = a) := by
  have lift : ∀ {h : Handler}, HandlerEffect s (h s).1 →
      ((h s).1.myAddress = s.myAddress ∨ i = .peDispatch ∨ i = .bcUuidResetAddress ∨ i = .bcResetAllAddresses ∨
        ∃ a, i = .bcUuidSetAddress a ∧ (h s).1.myAddress = a) → dispatchCommand i h s = .next t →
      (enabledWhen i s = true → s.pePhase = .dispatch) →
      s.fault = none ∧ s.pePhase = .dispatch ∧
        ∃ u r, HandlerEffect s u ∧ finishDispatch (u, r) = .ok t ∧
          (u.myAddress = s.myAddress ∨ i = .peDispatch ∨ i = .bcUuidResetAddress ∨ i = .bcResetAllAddresses ∨
            ∃ a, i = .bcUuidSetAddress a ∧ u.myAddress = a) := by
    intro h he ha hd hp
    obtain ⟨h1, h2, h3, h4⟩ := dispatchCommand_eq_next he hd
    exact ⟨h1, hp h2, _, _, h3, h4, ha⟩
  have noEvent : ∀ {ds}, encode s.cfg i = .event ds → i ≠ .peDispatch → False := fun h h' =>
    hi.elim (fun k => k _ h) h'
  cases i with
  | reset | rxByte | rxTimeout | pePoll | peSuspendRx | peVerify | txReady | txComplete | tick =>
    exact (noEvent rfl (by simp)).elim
  | peDispatch =>
    obtain ⟨h1, h2, h3⟩ := perform_eq_next.1 hn
    obtain ⟨a, p, -, h4⟩ := dispatchFrame_eq_ok h3
    exact ⟨h1, by simpa [enabledWhen] using h2, _, _, processFrame_effect a p s, h4, by simp⟩
  | resetCounts => exact lift (handleResetCounts_effect s) (.inl rfl) hn (by simp [enabledWhen])
  | appRequest p =>
    refine lift (handleAppRequest_effect p s) (.inl ?_) hn (by simp [enabledWhen])
    unfold handleAppRequest askApplication
    split
    · simp only [emit_appAnswers]
      cases s.appAnswers <;> rfl
    · rfl
  | bcLegacy | bcApp => exact lift (.emit _ s) (.inl rfl) hn (by simp [enabledWhen])
  | bcUuidReserved | bcReserved =>
    exact lift (malformed_effect s) (.inl rfl) hn (by simp [enabledWhen])
  | bcUuidResetAddress => exact lift (clearAddress_effect s) (by simp) hn (by simp [enabledWhen])
  | bcResetAllAddresses => exact lift (clearAddress_effect s) (by simp) hn (by simp [enabledWhen])
  | bcUuidSetAddress a =>
    refine lift (handleBcUuidSetAddress_effect a s) ?_ hn (by simp [enabledWhen])
    unfold handleBcUuidSetAddress
    split
    · exact .inr (.inr (.inr (.inr ⟨a, rfl, rfl⟩)))
    · exact .inl rfl
  | bcEnableNeighbours | bcDisableNeighbours => exact lift (setSegment_effect _ s) (.inl rfl) hn (by simp [enabledWhen])
  | bcBusAssert m bytes =>
    refine lift (handleBcBusAssert_effect m bytes s) (.inl ?_) hn (by simp [enabledWhen])
    unfold handleBcBusAssert
    split
    · dsimp only
      split <;> rfl
    · simp [malformed]
  | _ => exact lift (.refl s) (.inl rfl) hn (by simp [enabledWhen])

/-- Everything that can lie behind a next state of `exec`: one case per operation, and one for the dispatch of a frame
command. -/
theorem exec_cases {i : Instr} {s t : State} (hn : exec i s = .next t) :
    (i = .reset ∧ t = resetDevice s) ∨
    (∃ b, i = .rxByte b ∧ receiveByte b s = .ok t) ∨
    (i = .rxTimeout ∧ endBurst s = .ok t) ∨
    (i = .pePoll ∧ s.pePhase = .idle ∧ t = pollFrame s) ∨
    (i = .peSuspendRx ∧ s.pePhase = .latched ∧ t = suspendReception s) ∨
    (i = .peVerify ∧ s.pePhase = .verify ∧ verifyFrame s = .ok t) ∨
    (i = .txReady ∧ s.txReadyEn = true ∧ sendByte s = .ok t) ∨
    (i = .txComplete ∧ s.txCompleteEn = true ∧ t = releaseLine s) ∨
    (i = .tick ∧ t = tickOnce s) ∨
    (((∀ ds, encode s.cfg i ≠ .event ds) ∨ i = .peDispatch) ∧ s.fault = none ∧ s.pePhase = .dispatch ∧
      ∃ u r, HandlerEffect s u ∧ finishDispatch (u, r) = .ok t ∧
        (u.myAddress = s.myAddress ∨ i = .peDispatch ∨ i = .bcUuidResetAddress ∨ i = .bcResetAllAddresses ∨
          ∃ a, i = .bcUuidSetAddress a ∧ u.myAddress = a)) := by
  cases i with
  | reset =>
    simp only [exec, execReset] at hn
    split at hn
    · cases hn
      exact .inl ⟨rfl, rfl⟩
    · cases hn
  | rxByte b => exact .inr (.inl ⟨b, rfl, (perform_eq_next.1 hn).2.2⟩)
  | rxTimeout => exact .inr (.inr (.inl ⟨rfl, (perform_eq_next.1 hn).2.2⟩))
  | pePoll =>
    simp only [exec, execPePoll] at hn
    obtain ⟨-, h2, h3⟩ := perform_eq_next.1 hn
    cases h3
    exact .inr (.inr (.inr (.inl ⟨rfl, of_decide_eq_true h2, rfl⟩)))
  | peSuspendRx =>
    simp only [exec, execPeSuspendRx] at hn
    obtain ⟨-, h2, h3⟩ := perform_eq_next.1 hn
    cases h3
    exact .inr (.inr (.inr (.inr (.inl ⟨rfl, of_decide_eq_true h2, rfl⟩))))
  | peVerify =>
    obtain ⟨-, h2, h3⟩ := perform_eq_next.1 hn
    exact .inr (.inr (.inr (.inr (.inr (.inl ⟨rfl, of_decide_eq_true h2, h3⟩)))))
  | txReady =>
    obtain ⟨-, h2, h3⟩ := perform_eq_next.1 hn
    exact .inr (.inr (.inr (.inr (.inr (.inr (.inl ⟨rfl, h2, h3⟩))))))
  | txComplete =>
    simp only [exec, execTxComplete] at hn
    obtain ⟨-, h2, h3⟩ := perform_eq_next.1 hn
    cases h3
    exact .inr (.inr (.inr (.inr (.inr (.inr (.inr (.inl ⟨rfl, h2, rfl⟩)))))))
  | tick =>
    simp only [exec, execTick] at hn
    cases (perform_eq_next.1 hn).2.2
    exact .inr (.inr (.inr (.inr (.inr (.inr (.inr (.inr (.inl ⟨rfl, rfl⟩))))))))
  | peDispatch =>
    exact .inr (.inr (.inr (.inr (.inr (.inr (.inr (.inr (.inr
      ⟨.inr rfl, exec_frameCommand_eq_next hn (.inr rfl)⟩))))))))
  | _ =>
    exact .inr (.inr (.inr (.inr (.inr (.inr (.inr (.inr (.inr
      ⟨.inl (by simp [encode]), exec_frameCommand_eq_next hn (.inl (by simp [encode]))⟩))))))))

end Sys2Proof.Machine
end

