-- ==== Sys2Proof/Laws/PerInstr.lean ====
section
/-! SUPPORT. A statement about every instruction as syntax, one lemma per constructor: the length of the payload its
encoding carries is the one its row gives (30_encoding.md R108 to R110). -/

namespace Sys2Proof.Laws

/-- An event code carries no payload; a frame's payload has the length the row of its command gives. -/
def EncodedLength.Statement (i : Instr) : Prop :=
  ∀ c : Config,
    match encode c i with
    | .event _ => payloadLength c i = 0
    | .unicast p => p.length = payloadLength c i
    | .broadcast p => p.length = payloadLength c i

theorem EncodedLength.reset : EncodedLength.Statement .reset := fun _ => by
  simp [encode, payloadLength]

theorem EncodedLength.rxByte (b : Byte) : EncodedLength.Statement (.rxByte b) := fun _ => by
  simp [encode, payloadLength]

theorem EncodedLength.rxTimeout : EncodedLength.Statement .rxTimeout := fun _ => by
  simp [encode, payloadLength]

theorem EncodedLength.pePoll : EncodedLength.Statement .pePoll := fun _ => by
  simp [encode, payloadLength]

theorem EncodedLength.peSuspendRx : EncodedLength.Statement .peSuspendRx := fun _ => by
  simp [encode, payloadLength]

theorem EncodedLength.peVerify : EncodedLength.Statement .peVerify := fun _ => by
  simp [encode, payloadLength]

theorem EncodedLength.peDispatch : EncodedLength.Statement .peDispatch := fun _ => by
  simp [encode, payloadLength]

theorem EncodedLength.txReady : EncodedLength.Statement .txReady := fun _ => by
  simp [encode, payloadLength]

theorem EncodedLength.txComplete : EncodedLength.Statement .txComplete := fun _ => by
  simp [encode, payloadLength]

theorem EncodedLength.tick : EncodedLength.Statement .tick := fun _ => by
  simp [encode, payloadLength]

theorem EncodedLength.ping : EncodedLength.Statement .ping := fun _ => by
  simp [encode, payloadLength]

theorem EncodedLength.deviceInfo : EncodedLength.Statement .deviceInfo := fun _ => by
  simp [encode, payloadLength]

theorem EncodedLength.getName : EncodedLength.Statement .getName := fun _ => by
  simp [encode, payloadLength]

theorem EncodedLength.getUptime : EncodedLength.Statement .getUptime := fun _ => by
  simp [encode, payloadLength]

theorem EncodedLength.getVersion : EncodedLength.Statement .getVersion := fun _ => by
  simp [encode, payloadLength]

theorem EncodedLength.getCountCorrect : EncodedLength.Statement .getCountCorrect := fun _ => by
  simp [encode, payloadLength]

theorem EncodedLength.getCountOverflow : EncodedLength.Statement .getCountOverflow := fun _ => by
  simp [encode, payloadLength]

theorem EncodedLength.getCountLost : EncodedLength.Statement .getCountLost := fun _ => by
  simp [encode, payloadLength]

theorem EncodedLength.getCountMismatch : EncodedLength.Statement .getCountMismatch := fun _ => by
  simp [encode, payloadLength]

theorem EncodedLength.getCountAll : EncodedLength.Statement .getCountAll := fun _ => by
  simp [encode, payloadLength]

theorem EncodedLength.resetCounts : EncodedLength.Statement .resetCounts := fun _ => by
  simp [encode, payloadLength]

theorem EncodedLength.getUuid : EncodedLength.Statement .getUuid := fun _ => by
  simp [encode, payloadLength]

theorem EncodedLength.getExtendedInfo : EncodedLength.Statement .getExtendedInfo := fun _ => by
  simp [encode, payloadLength]

theorem EncodedLength.baseReserved2 (code : Byte) : EncodedLength.Statement (.baseReserved2 code) := fun _ => by
  simp [encode, payloadLength]

theorem EncodedLength.baseReservedN (rest : List Byte) : EncodedLength.Statement (.baseReservedN rest) := fun _ => by
  simp [encode, payloadLength]
  omega

theorem EncodedLength.appRequest (p : List Byte) : EncodedLength.Statement (.appRequest p) := fun _ => by
  simp [encode, payloadLength]

theorem EncodedLength.bcLegacy : EncodedLength.Statement .bcLegacy := fun _ => by
  simp [encode, payloadLength]

theorem EncodedLength.bcApp (rest : List Byte) : EncodedLength.Statement (.bcApp rest) := fun _ => by
  simp [encode, payloadLength]
  omega

theorem EncodedLength.bcUuidRequest : EncodedLength.Statement .bcUuidRequest := fun _ => by
  simp [encode, payloadLength]

theorem EncodedLength.bcUuidPing : EncodedLength.Statement .bcUuidPing := fun _ => by
  simp [encode, payloadLength]

theorem EncodedLength.bcUuidGetAddress : EncodedLength.Statement .bcUuidGetAddress := fun _ => by
  simp [encode, payloadLength]

theorem EncodedLength.bcUuidResetAddress : EncodedLength.Statement .bcUuidResetAddress := fun _ => by
  simp [encode, payloadLength]

theorem EncodedLength.bcUuidSetAddress (a : Addr) : EncodedLength.Statement (.bcUuidSetAddress a) := fun _ => by
  simp [encode, payloadLength]
  omega

theorem EncodedLength.bcUuidReserved (rest : List Byte) : EncodedLength.Statement (.bcUuidReserved rest) := fun _ => by
  simp [encode, payloadLength]
  omega

theorem EncodedLength.bcEnableNeighbours : EncodedLength.Statement .bcEnableNeighbours := fun _ => by
  simp [encode, payloadLength]

theorem EncodedLength.bcDisableNeighbours : EncodedLength.Statement .bcDisableNeighbours := fun _ => by
  simp [encode, payloadLength]

theorem EncodedLength.bcResetAllAddresses : EncodedLength.Statement .bcResetAllAddresses := fun _ => by
  simp [encode, payloadLength]

theorem EncodedLength.bcBusAssert (m : Byte) (bytes : List Byte) : EncodedLength.Statement (.bcBusAssert m bytes) := fun _ => by
  simp [encode, payloadLength]
  omega

theorem EncodedLength.bcReserved (p : List Byte) : EncodedLength.Statement (.bcReserved p) := fun _ => by
  simp [encode, payloadLength]

end Sys2Proof.Laws
end

