-- ==== Sys2Proof/Tests/Slice0.lean ====
section
/-! SUPPORT. Tests: every instruction's decoding from a word written out from the spec's tables, the refusals of each
check, one step on the spec's own vectors, and for every statement with hypotheses a state that meets them. -/

namespace Sys2Proof.Tests

open Sys2Proof.Machine

/-! ## Helpers -/

/-- The reset device with an assigned address. -/
def device (a : Addr) : State := { State.reset with myAddress := a }

/-- A field of the next state an instruction gives. -/
def after {α : Type} (i : Instr) (s : State) (g : State → α) : Option α :=
  match exec i s with
  | .next t => some (g t)
  | .fault _ => none
  | .refused _ => none

/-- The bytes of the reply frame in `TX`, none claimed if no reply is leaving. -/
def replyBytes (s : State) : List Byte :=
  if s.txReadyEn then ((memRead s .tx 0 s.txLen).toOption).getD [] else []

/-- What the device answers to a frame by `PE_DISPATCH`: the reply frame, empty for no reply. -/
def replyTo (f : List Byte) (s : State) : Option (List Byte) := after .peDispatch (placeFrame f s) replyBytes

/-- A device with a two-byte address field and the other checksum, still legal. -/
def wideConfig : Config :=
  { Config.cfg0 with addrLen := 2, masterAddr := 0x8000, csumKind := .xor, broadcastAddr := 0x0009 }

/-! ## Decoding: words written out from R108 to R110 and R130 -/

theorem test_decode_reset : decode .cfg0 (.event [0b0000]) = .ok .reset := by decide
theorem test_decode_rxByte : decode .cfg0 (.event [0b0001, 0b1001, 0b0111]) = .ok (.rxByte 0x97) := by decide
theorem test_decode_rxTimeout : decode .cfg0 (.event [0b0010]) = .ok .rxTimeout := by decide
theorem test_decode_pePoll : decode .cfg0 (.event [0b0011]) = .ok .pePoll := by decide
theorem test_decode_peSuspendRx : decode .cfg0 (.event [0b0100]) = .ok .peSuspendRx := by decide
theorem test_decode_peVerify : decode .cfg0 (.event [0b0101]) = .ok .peVerify := by decide
theorem test_decode_peDispatch : decode .cfg0 (.event [0b0110]) = .ok .peDispatch := by decide
theorem test_decode_txReady : decode .cfg0 (.event [0b0111]) = .ok .txReady := by decide
theorem test_decode_txComplete : decode .cfg0 (.event [0b1000]) = .ok .txComplete := by decide
theorem test_decode_tick : decode .cfg0 (.event [0b1001]) = .ok .tick := by decide
theorem test_decode_ping : decode .cfg0 (.unicast []) = .ok .ping := by decide
theorem test_decode_deviceInfo : decode .cfg0 (.unicast [0x00]) = .ok .deviceInfo := by decide
theorem test_decode_getName : decode .cfg0 (.unicast [0x00, 0x00]) = .ok .getName := by decide
theorem test_decode_getUptime : decode .cfg0 (.unicast [0x00, 0x01]) = .ok .getUptime := by decide
theorem test_decode_getVersion : decode .cfg0 (.unicast [0x00, 0x02]) = .ok .getVersion := by decide
theorem test_decode_getCountCorrect : decode .cfg0 (.unicast [0x00, 0x03]) = .ok .getCountCorrect := by decide
theorem test_decode_getCountOverflow :
    decode .cfg0 (.unicast [0x00, 0x04]) = .ok .getCountOverflow := by
  decide
theorem test_decode_getCountLost : decode .cfg0 (.unicast [0x00, 0x05]) = .ok .getCountLost := by decide
theorem test_decode_getCountMismatch :
    decode .cfg0 (.unicast [0x00, 0x06]) = .ok .getCountMismatch := by
  decide
theorem test_decode_getCountAll : decode .cfg0 (.unicast [0x00, 0x07]) = .ok .getCountAll := by decide
theorem test_decode_resetCounts : decode .cfg0 (.unicast [0x00, 0x08]) = .ok .resetCounts := by decide
theorem test_decode_getUuid : decode .cfg0 (.unicast [0x00, 0x09]) = .ok .getUuid := by decide
theorem test_decode_getExtendedInfo : decode .cfg0 (.unicast [0x00, 0x0A]) = .ok .getExtendedInfo := by decide
theorem test_decode_baseReserved2 :
    decode .cfg0 (.unicast [0x00, 0x63]) = .ok (.baseReserved2 0x63) := by
  decide
theorem test_decode_baseReservedN :
    decode .cfg0 (.unicast [0x00, 0x00, 0x00]) = .ok (.baseReservedN [0x00, 0x00]) := by
  decide
theorem test_decode_appRequest :
    decode .cfg0 (.unicast [0x10, 0x01]) = .ok (.appRequest [0x10, 0x01]) := by
  decide
theorem test_decode_bcLegacy : decode .cfg0 (.broadcast []) = .ok .bcLegacy := by decide
theorem test_decode_bcApp :
    decode .cfg0 (.broadcast [0x03, 0xAA, 0xBB]) = .ok (.bcApp [0xAA, 0xBB]) := by
  decide
theorem test_decode_bcUuidRequest : decode .cfg0 (.broadcast [0x00, 0x00]) = .ok .bcUuidRequest := by decide
theorem test_decode_bcUuidPing :
    decode .cfg0 (.broadcast [0x00, 0x00, 0x78, 0x56, 0x34, 0x12]) = .ok .bcUuidPing := by
  decide
theorem test_decode_bcUuidGetAddress :
    decode .cfg0 (.broadcast [0x00, 0x00, 0x78, 0x56, 0x34, 0x12, 0x00]) = .ok .bcUuidGetAddress := by
  decide
theorem test_decode_bcUuidResetAddress :
    decode .cfg0 (.broadcast [0x00, 0x00, 0x78, 0x56, 0x34, 0x12, 0x01]) = .ok .bcUuidResetAddress := by
  decide
theorem test_decode_bcUuidSetAddress :
    decode .cfg0 (.broadcast [0x00, 0x00, 0x78, 0x56, 0x34, 0x12, 0x00, 0x07]) = .ok (.bcUuidSetAddress 0x07) := by
  decide
theorem test_decode_bcUuidReserved :
    decode .cfg0 (.broadcast [0x00, 0x00, 0x79, 0x56, 0x34, 0x12]) = .ok (.bcUuidReserved [0x79, 0x56, 0x34, 0x12]) := by
  decide
theorem test_decode_bcEnableNeighbours :
    decode .cfg0 (.broadcast [0x00, 0x01]) = .ok .bcEnableNeighbours := by
  decide
theorem test_decode_bcDisableNeighbours :
    decode .cfg0 (.broadcast [0x00, 0x02]) = .ok .bcDisableNeighbours := by
  decide
theorem test_decode_bcResetAllAddresses :
    decode .cfg0 (.broadcast [0x00, 0x03]) = .ok .bcResetAllAddresses := by
  decide
theorem test_decode_bcBusAssert :
    decode .cfg0 (.broadcast [0x00, 0x04, 0x08, 0x78]) = .ok (.bcBusAssert 0x08 [0x78]) := by
  decide
theorem test_decode_bcReserved :
    decode .cfg0 (.broadcast [0x00, 0x05]) = .ok (.bcReserved [0x00, 0x05]) := by
  decide

/-- A two-byte address is little-endian (R75, R110). -/
theorem test_decode_setAddress_wide :
    decode wideConfig (.broadcast [0x00, 0x00, 0x78, 0x56, 0x34, 0x12, 0x00, 0x34, 0x12]) =
      .ok (.bcUuidSetAddress 0x1234) := by
  decide

theorem test_decode_unused : decode .cfg0 (.event [0b1010]) = .error (.unusedCode 0b1010) := by decide
theorem test_decode_truncated : decode .cfg0 (.event [0b0001, 0b1001]) = .error .truncatedOperand := by decide
theorem test_decode_empty : decode .cfg0 (.event []) = .error .noCode := by decide
theorem test_decode_trailing : decode .cfg0 (.event [0b0010, 0b0011]) = .error .trailingDigits := by decide

/-- The opcode table's numbering: `RX_BYTE`'s word `0x1bb` and `GET_EXTENDED_INFO`'s word `0x000A`. -/
theorem test_decode_table :
    decodeTableWord 16 0x197 = some (.rxByte 0x97) ∧ decodeTableWord 16 0x000A = some .getExtendedInfo ∧
      decodeTableWord 8 0x9 = some .tick ∧ decodeTableWord 0 0 = some .ping := by
  decide

/-- The host's way in: the word is placed and the next step runs it, answered as in R211's example frame. -/
theorem test_step_of_fetchWord :
    (match step (State.reset.withFetchWord 16 0x0009) with
      | .next t => replyBytes t
      | .fault _ => []
      | .refused _ => []) = [0x80, 0x78, 0x56, 0x34, 0x12, 0x19] := by
  decide +kernel

/-! ## Well-formedness: an ill-formed instruction for each check -/

theorem test_illFormed_baseReserved2 : ¬ WellFormed .cfg0 (.baseReserved2 0x09) := by decide
theorem test_illFormed_baseReservedN : ¬ WellFormed .cfg0 (.baseReservedN [0x00]) := by decide
theorem test_illFormed_appRequest_empty : ¬ WellFormed .cfg0 (.appRequest []) := by decide
theorem test_illFormed_appRequest_base : ¬ WellFormed .cfg0 (.appRequest [0x00, 0x01]) := by decide
theorem test_illFormed_setAddress : ¬ WellFormed .cfg0 (.bcUuidSetAddress 0x100) := by decide
theorem test_illFormed_uuidReserved : ¬ WellFormed .cfg0 (.bcUuidReserved [0x78, 0x56, 0x34, 0x12]) := by decide
theorem test_illFormed_bcReserved : ¬ WellFormed .cfg0 (.bcReserved [0x00, 0x01]) := by decide
theorem test_illFormed_tooLong : ¬ WellFormed .cfg0 (.bcApp (List.replicate 29 0xFF)) := by decide
theorem test_wellFormed_longest : WellFormed .cfg0 (.bcApp (List.replicate 28 0xFF)) := by decide

/-! ## Configurations the spec refuses (R352) -/

theorem test_config_valid : Config.cfg0.Valid ∧ wideConfig.Valid := by decide
theorem test_config_twoByteChecksum : ¬ { Config.cfg0 with csumLen := 2 }.Valid := by decide
theorem test_config_zeroUuid : ¬ { Config.cfg0 with uuid := 0 }.Valid := by decide
theorem test_config_smallBuffer : ¬ { Config.cfg0 with bufSize := 17 }.Valid := by decide
theorem test_config_master : ¬ { Config.cfg0 with masterAddr := 0x40 }.Valid := by decide
theorem test_config_equalCodes : ¬ { Config.cfg0 with cmdUuid := 0x00 }.Valid := by decide

/-! ## The checksum unit: the spec's values (R141, R142, R144, R145) -/

theorem test_xor8 : xor8 [0x05, 0x00, 0x01] = 0x04 := by decide
theorem test_crc8_catalogue :
    crc8 .cfg0 [0x31, 0x32, 0x33, 0x34, 0x35, 0x36, 0x37, 0x38, 0x39] = 0x7E := by
  decide +kernel
theorem test_crc8_short : crc8 .cfg0 [] = 0xFD ∧ crc8 .cfg0 [0x05] = 0x97 ∧ crc8 .cfg0 [0x05, 0x00] = 0xB8 := by
  decide
theorem test_csumOk : csumOk .cfg0 [0x05, 0x97] = true ∧ csumOk .cfg0 [0x05, 0x96] = false := by decide
theorem test_csumOk_short : csumOk wideConfig [0x05, 0x05] = false := by decide
theorem test_csumOk_stuckLow : csumOk wideConfig [0x00, 0x00, 0x00] = true := by decide

/-! ## One step of each operation, on the examples of their rules -/

/-- R350: everything but the configuration is replaced. -/
theorem test_reset :
    after .reset { device 5 with fault := some .txOverlap, cntLost := 3, rxEnable := false, trace := [.busAssert] }
      (fun t => (t.myAddress, t.fault, t.cntLost, t.rxEnable, t.trace)) = some (0, none, 0, true, []) := by
  decide

/-- R150: from reset, `rx 05`. -/
theorem test_rxByte :
    after (.rxByte 0x05) State.reset (fun t => (t.rx, t.rxOffset, t.timerArmed, t.trace)) =
      some ([(0, 0x05)], 1, true, [.timerRestart]) := by
  decide

/-- R152: the byte that fills the buffer is stored, then the offset wraps. -/
theorem test_rxByte_wrap :
    after (.rxByte 0xAB) { State.reset with rxOffset := 31 } (fun t => (t.rx, t.rxOffset, t.overflowFlag)) =
      some ([(31, 0xAB)], 0, true) := by
  decide

/-- R155: after `rx 05 97` at device 5. -/
theorem test_rxTimeout :
    after .rxTimeout { device 5 with rx := [(0, 0x05), (1, 0x97)], rxOffset := 2, timerArmed := true }
      (fun t => (t.pendingLen, t.heartbeatSuppress, t.rxOffset, t.timerArmed)) = some (2, true, 0, false) := by
  decide

/-- R157: the deferred counters move for a foreign frame too, and wrap. -/
theorem test_rxTimeout_counters :
    after .rxTimeout { device 5 with
      rx := [(0, 0x06), (1, 0x97)], rxOffset := 2, timerArmed := true, lostFlag := true, cntLost := 0xFFFFFFFF }
      (fun t => (t.pendingLen, t.cntLost, t.lostFlag)) = some (0, 0, false) := by
  decide

/-- R171: with `pending_len = 2`. -/
theorem test_pePoll :
    after .pePoll { State.reset with pendingLen := 2, heartbeatSuppress := true }
      (fun t => (t.peLen, t.pendingLen, t.heartbeatSuppress, t.pePhase)) = some (2, 0, false, .latched) := by
  decide

/-- R172. -/
theorem test_peSuspendRx :
    after .peSuspendRx { State.reset with pePhase := .latched } (fun t => (t.rxEnable, t.pePhase, t.trace)) =
      some (false, .verify, [.rxEnable false]) := by
  decide

/-- R173: `RX = 05 96`. -/
theorem test_peVerify :
    after .peVerify { device 5 with rx := [(0, 0x05), (1, 0x96)], peLen := 2, pePhase := .verify, rxEnable := false }
      (fun t => (t.cntMismatch, t.cntCorrect, t.rxEnable, t.pePhase)) = some (1, 0, true, .idle) := by
  decide

/-- R176: a frame with neither address is still a unicast request at `PE_DISPATCH`. -/
theorem test_peDispatch : replyTo [0x06, 0xFF] (device 5) = some [0x85, 0xB1] := by decide

/-- R274: the second of the two bytes of an empty reply. -/
theorem test_txReady :
    after .txReady { device 5 with tx := [(0, 0x85), (1, 0xB1)], txLen := 2, txOffset := 1, txReadyEn := true }
      (fun t => (t.trace, t.txOffset, t.txReadyEn, t.txCompleteEn)) = some ([.txByte 0xB1], 2, false, true) := by
  decide

/-- R275: the line is released before reception resumes. -/
theorem test_txComplete :
    after .txComplete { device 5 with txCompleteEn := true, lineDrive := true, rxEnable := false }
      (fun t => (t.trace, t.txState, t.rxEnable)) = some ([.lineDrive false, .rxEnable true], .idle, true) := by
  decide

/-- R290: the fiftieth tick from reset. -/
theorem test_tick :
    after .tick { State.reset with uptime := 49, hbDiv := 49 }
      (fun t => (t.uptime, t.hbDiv, t.heartbeat, t.trace)) = some (50, 0, true, [.heartbeatToggle]) := by
  decide

/-- R294: the default divider, 1 for an `UPTIME_FREQ` of 0 or 1, and CFG0's 50 for 100. -/
theorem test_defaultHeartbeatDiv :
    Config.defaultHeartbeatDiv 0 = 1 ∧ Config.defaultHeartbeatDiv 1 = 1 ∧ Config.defaultHeartbeatDiv 3 = 1 ∧
      Config.defaultHeartbeatDiv 100 = 50 ∧ Config.cfg0.withDefaultHeartbeatDiv = Config.cfg0 := by
  decide

/-- R294: with that default every tick is a slot. -/
theorem test_tick_defaultDivider :
    after .tick { State.reset with cfg := { Config.cfg0 with uptimeFreq := 1 }.withDefaultHeartbeatDiv }
      (fun t => (t.uptime, t.hbDiv, t.trace)) = some (1, 0, [.heartbeatToggle]) := by
  decide

/-! ## The requests and broadcasts, on the request and reply frames of their rules -/

theorem test_ping :
    replyTo [0x05, 0x97] (device 5) =
      some [0x85, 0xB1] := by
  decide
theorem test_deviceInfo :
    replyTo [0x05, 0x00, 0xB8] (device 5) =
      some [0x85, 0x03, 0x01, 0x01, 0x09, 0x00, 0x78, 0x56, 0x34, 0x12, 0x64, 0x00, 0x15] := by
  decide +kernel
theorem test_getName :
    replyTo [0x05, 0x00, 0x00, 0x84] (device 5) =
      some [0x85, 0x64, 0x65, 0x76, 0xD8] := by
  decide +kernel
theorem test_getUptime :
    replyTo [0x05, 0x00, 0x01, 0x99] (device 5) =
      some [0x85, 0x00, 0x00, 0x00, 0x00, 0xC7] := by
  decide +kernel
theorem test_getVersion :
    replyTo [0x05, 0x00, 0x02, 0xBE] (device 5) =
      some [0x85, 0x76, 0x31, 0x8D] := by
  decide +kernel
theorem test_getCountCorrect :
    replyTo [0x05, 0x00, 0x03, 0xA3] ({ device 5 with cntCorrect := 1 }) =
      some [0x85, 0x01, 0x00, 0x00, 0x00, 0x5A] := by
  decide +kernel
theorem test_getCountOverflow :
    replyTo [0x05, 0x00, 0x04, 0xF0] ({ device 5 with cntCorrect := 1 }) =
      some [0x85, 0x00, 0x00, 0x00, 0x00, 0xC7] := by
  decide +kernel
theorem test_getCountLost :
    replyTo [0x05, 0x00, 0x05, 0xED] ({ device 5 with cntCorrect := 1 }) =
      some [0x85, 0x00, 0x00, 0x00, 0x00, 0xC7] := by
  decide +kernel
theorem test_getCountMismatch :
    replyTo [0x05, 0x00, 0x06, 0xCA] ({ device 5 with cntCorrect := 1 }) =
      some [0x85, 0x00, 0x00, 0x00, 0x00, 0xC7] := by
  decide +kernel
theorem test_getCountAll :
    replyTo [0x05, 0x00, 0x07, 0xD7] ({ device 5 with cntCorrect := 1 }) =
      some [0x85, 0x01, 0x00, 0x00, 0x00, 0x00, 0x00, 0x00, 0x00, 0x00, 0x00, 0x00, 0x00, 0x00, 0x00, 0x00, 0x00, 0x7C] := by
  decide +kernel
theorem test_resetCounts :
    replyTo [0x05, 0x00, 0x08, 0x6C] ({ device 5 with cntCorrect := 1 }) =
      some [0x85, 0xB1] := by
  decide
theorem test_getUuid :
    replyTo [0x05, 0x00, 0x09, 0x71] (device 5) =
      some [0x85, 0x78, 0x56, 0x34, 0x12, 0xC6] := by
  decide +kernel
theorem test_getExtendedInfo :
    replyTo [0x05, 0x00, 0x0A, 0x56] (device 5) =
      some [0x85, 0x03, 0x02, 0x20, 0x00, 0x64, 0x65, 0x76, 0x76, 0x31, 0xAB] := by
  decide +kernel
theorem test_baseReserved2 :
    replyTo [0x05, 0x00, 0x63, 0x37] (device 5) =
      some [] := by
  decide
theorem test_baseReservedN :
    replyTo [0x05, 0x00, 0x00, 0x00, 0x52] (device 5) =
      some [] := by
  decide
theorem test_appRequest_none :
    replyTo [0x05, 0x10, 0x01, 0x2D] (device 5) =
      some [] := by
  decide
theorem test_bcLegacy :
    replyTo [0x00, 0xFE] (device 5) =
      some [] := by
  decide
theorem test_bcUuidRequest :
    replyTo [0x00, 0x00, 0x00, 0x0D] (device 0) =
      some [0x80, 0x78, 0x56, 0x34, 0x12, 0x19] := by
  decide +kernel
theorem test_bcUuidRequest_assigned :
    replyTo [0x00, 0x00, 0x00, 0x0D] (device 5) =
      some [] := by
  decide
theorem test_bcUuidPing :
    replyTo [0x00, 0x00, 0x00, 0x78, 0x56, 0x34, 0x12, 0x4E] (device 5) =
      some [0x85, 0xB1] := by
  decide
theorem test_bcUuidGetAddress :
    replyTo [0x00, 0x00, 0x00, 0x78, 0x56, 0x34, 0x12, 0x00, 0xB5] (device 5) =
      some [0x85, 0x05, 0x18] := by
  decide +kernel
theorem test_bcUuidResetAddress :
    replyTo [0x00, 0x00, 0x00, 0x78, 0x56, 0x34, 0x12, 0x01, 0xA8] (device 5) =
      some [0x80, 0xD8] := by
  decide
theorem test_bcUuidSetAddress :
    replyTo [0x00, 0x00, 0x00, 0x78, 0x56, 0x34, 0x12, 0x00, 0x07, 0x56] (device 0) =
      some [0x87, 0x01, 0xF4] := by
  decide +kernel
theorem test_bcUuidSetAddress_master :
    replyTo [0x00, 0x00, 0x00, 0x78, 0x56, 0x34, 0x12, 0x00, 0x80, 0x23] (device 5) =
      some [0x85, 0x00, 0x71] := by
  decide +kernel
theorem test_bcUuidReserved :
    replyTo [0x00, 0x00, 0x00, 0x79, 0x56, 0x34, 0x12, 0xD3] (device 5) =
      some [] := by
  decide
theorem test_bcReserved :
    replyTo [0x00, 0x00, 0x05, 0x64] (device 5) =
      some [] := by
  decide

/-- R215: an application that answers `[0xAA]`. -/
theorem test_appRequest :
    replyTo [0x05, 0x10, 0x01, 0x2D]
      { device 5 with cfg := { Config.cfg0 with appRequestRegistered := true }, appAnswers := [.reply [0xAA]] } =
      some [0x85, 0xAA, 0x02] := by
  decide +kernel

/-- R271: a two-byte reply address, `MASTER_ADDR` at the top bit, the XOR checksum after it. -/
theorem test_reply_wide :
    replyTo [0x23, 0x01, 0x22] { State.reset with cfg := wideConfig, myAddress := 0x0123 } =
      some [0x23, 0x81, 0xA2] := by
  decide

/-- What the device emits and leaves after a broadcast, by `PE_DISPATCH`. -/
def broadcastTo (f : List Byte) (s : State) : Option (List OutEvent × Addr × Bool) :=
  after .peDispatch (placeFrame f s) (fun t => (t.trace, t.myAddress, t.segmentEnable))

theorem test_bcApp :
    broadcastTo [0x00, 0x03, 0xAA, 0xBB, 0xD0] (device 5) =
      some ([.appBroadcast [0xAA, 0xBB] 0x03, .rxEnable true], 5, true) := by
  decide
theorem test_bcEnableNeighbours :
    broadcastTo [0x00, 0x00, 0x01, 0x10] (device 5) =
      some ([.segment true, .rxEnable true], 5, true) := by
  decide
theorem test_bcDisableNeighbours :
    broadcastTo [0x00, 0x00, 0x02, 0x37] (device 5) =
      some ([.segment false, .rxEnable true], 5, false) := by
  decide
theorem test_bcResetAllAddresses :
    broadcastTo [0x00, 0x00, 0x03, 0x2A] (device 5) =
      some ([.rxEnable true], 0, true) := by
  decide
theorem test_bcBusAssert :
    broadcastTo [0x00, 0x00, 0x04, 0x08, 0x78, 0xD6] (device 5) =
      some ([.busAssert, .rxEnable true], 5, true) := by
  decide
theorem test_bcBusAssert_aboveMask :
    broadcastTo [0x00, 0x00, 0x04, 0x08, 0x78, 0x01, 0xAB] (device 5) =
      some ([.rxEnable true], 5, true) := by
  decide

/-! ## Witnesses: for every statement with hypotheses, a state that meets them all -/

/-- An application is registered. -/
def withApplication (answers : List Result) (s : State) : State :=
  { s with cfg := { s.cfg with appRequestRegistered := true }, appAnswers := answers }

/-- Device 5, verified frame `f`, about to dispatch. -/
def dispatching (f : List Byte) (a : Addr) : State := placeFrame f (device a)

/-- Device 5 handing over the reply `85 B1`. -/
def sending : State :=
  { device 5 with tx := [(0, 0x85), (1, 0xB1)], txLen := 2, txReadyEn := true, lineDrive := true, rxEnable := false }

/-- Device 5 with the ping `05 97` pending. -/
def pending : State :=
  { device 5 with rx := [(0, 0x05), (1, 0x97)], pendingLen := 2, heartbeatSuppress := true }

theorem witness_DecodeOfEncode :
    Config.cfg0.Valid ∧ wideConfig.Valid ∧ WellFormed .cfg0 (.bcUuidSetAddress 0xFF) ∧
      WellFormed wideConfig (.bcUuidSetAddress 0xFFFF) ∧ WellFormed .cfg0 (.baseReserved2 0x0B) ∧
      WellFormed .cfg0 (.baseReservedN [0x00, 0x00]) ∧ WellFormed .cfg0 (.appRequest (List.replicate 29 0x01)) ∧
      WellFormed .cfg0 (.bcUuidReserved [0x78]) ∧ WellFormed .cfg0 (.bcReserved [0x00]) := by
  decide

theorem witness_EncodeOfDecode : wideConfig.Valid := by decide

theorem witness_DecodedCommandsWellFormed :
    Config.cfg0.Valid ∧
      (List.replicate 29 (0x00 : Byte)).length + Config.cfg0.addrLen + Config.cfg0.csumLen ≤
        Config.cfg0.bufSize - 1 := by
  decide

theorem witness_EventStreamParses : encode .cfg0 (.rxByte 0x97) = .event [0x1, 0x9, 0x7] := by decide

theorem witness_UnusedEventCodesRefused : 10 ≤ (10 : Digit).toNat ∧ 10 ≤ (15 : Digit).toNat := by decide

theorem witness_ForeignUuidIsReserved :
    Config.cfg0.Valid ∧ ([0x78, 0x56, 0x34, 0x13] : List Byte).length = 4 ∧
      [0x78, 0x56, 0x34, 0x13] ≠ le Config.cfg0.uuid.toNat 4 := by
  decide

theorem witness_StepRunsDecodedInstruction :
    State.reset.stimulus = [] ∧ decodeEvent [0x1, 0x0, 0x5, 0x2] = .ok (.rxByte 0x05, [0x2]) := by
  decide

theorem witness_DispatchRunsDecodedCommand :
    (dispatching [0x00, 0x00, 0x03, 0x2A] 5).cfg.Valid ∧
      latchedFrame (dispatching [0x00, 0x00, 0x03, 0x2A] 5) = .ok (0x00, [0x00, 0x03]) := by
  decide

theorem witness_VerifyComparesLastByte :
    Config.cfg0.Valid ∧ Config.cfg0.addrLen ≤ ([0x05] : List Byte).length ∧ csum .cfg0 [0x05] = 0x97 := by
  decide

theorem witness_AppendedChecksumVerifies : Config.cfg0.Valid ∧ wideConfig.Valid := by decide

theorem witness_OneByteErrorDetected :
    wideConfig.csumKind = .xor ∧ Config.cfg0.crc8Poly.getLsbD 0 = true ∧ (0x00 : Byte) ≠ 0x01 := by
  decide

theorem witness_ResetEffect : (device 5).cfg.Valid := by decide

theorem witness_BadConfigurationRefused :
    ¬ ({ State.reset with cfg := { Config.cfg0 with csumLen := 2 } } : State).cfg.Valid := by
  decide

/-- The invariant of a concrete state, from four conjunctions that can be decided. -/
theorem inv_of_fields {s : State}
    (h : s.cfg.Valid ∧ s.rxOffset < s.cfg.bufSize ∧
      (s.pendingLen = 0 ∨ (2 ≤ s.pendingLen ∧ s.pendingLen < s.cfg.bufSize)) ∧
      s.txState ≠ .bothEnabled ∧ (s.lineDrive = true ↔ s.txState ≠ .idle))
    (k : (s.txState = .sending → s.txOffset < s.txLen ∧ s.txLen ≤ s.cfg.bufSize) ∧
      s.myAddress < s.cfg.masterAddr ∧ s.peLen < s.cfg.bufSize ∧ (s.pePhase ≠ .idle → 2 ≤ s.peLen) ∧
      (s.pePhase = .dispatch → s.cfg.addrLen + s.cfg.csumLen ≤ s.peLen) ∧ s.hbDiv < s.cfg.heartbeatDiv)
    (l : (s.timerArmed = true → s.pendingLen = 0) ∧
      (s.timerArmed = false → s.rxOffset = 0 ∧ s.lostFlag = false ∧ s.overflowFlag = false) ∧
      s.rx.wf ∧ s.tx.wf ∧ (∀ c ∈ s.rx, c.1 < s.cfg.bufSize) ∧ ∀ c ∈ s.tx, c.1 < s.cfg.bufSize)
    (m : (∀ j < s.rxOffset, (s.rx.read j).isSome = true) ∧
      (s.overflowFlag = true → ∀ j < s.cfg.bufSize, (s.rx.read j).isSome = true) ∧
      (∀ j < s.pendingLen, (s.rx.read j).isSome = true) ∧
      (s.pePhase ≠ .idle → ∀ j < s.peLen, (s.rx.read j).isSome = true) ∧
      (s.txState = .sending → ∀ j < s.txLen, (s.tx.read j).isSome = true)) : Inv s := by
  obtain ⟨h1, h2, h3, h4, h5⟩ := h
  obtain ⟨k1, k2, k3, k4, k5, k6⟩ := k
  obtain ⟨l1, l2, l3, l4, l5, l6⟩ := l
  obtain ⟨m1, m2, m3, m4, m5⟩ := m
  exact ⟨h1, h2, h3, h4, h5, k1, k2, k3, k4, k5, k6, l1, l2, l3, l4, l5, l6, m1, m2, m3, m4, m5⟩

/-- The invariant says nothing of what is offered next nor of the mark. -/
theorem inv_offered {s : State} (h : Inv s) (st : List Digit) (m : Option FaultMark) :
    Inv { s with stimulus := st, fault := m } :=
  ⟨h.1, h.2, h.3, h.4, h.5, h.6, h.7, h.8, h.9, h.10, h.11, h.12, h.13, h.14, h.15, h.16, h.17, h.18, h.19, h.20,
    h.21, h.22⟩

/-- The pending device meets the invariant, whatever is offered next and whatever the mark. -/
theorem witness_Inv (st : List Digit) (m : Option FaultMark) :
    Inv { pending with stimulus := st, fault := m } :=
  inv_offered (inv_of_fields (by decide) (by decide) (by decide) (by decide)) st m

/-- The pending device meets the discipline. -/
theorem witness_Disciplined (st : List Digit) : Disciplined { pending with stimulus := st } :=
  ⟨fun h => absurd (by decide : pending.pePhase = .idle) h,
    fun h => absurd h (by decide : ¬ (pending.pePhase = .verify ∨ pending.pePhase = .dispatch))⟩

theorem witness_StepKeepsInv :
    Inv { pending with stimulus := [0x3] } ∧ ∃ t, step { pending with stimulus := [0x3] } = .next t :=
  ⟨witness_Inv [0x3] none, _, rfl⟩

theorem witness_InvExcludesAccessFaults :
    (Inv { pending with stimulus := [0x7] } ∧ step { pending with stimulus := [0x7] } = .fault .notEnabled) ∧
    (Inv { pending with stimulus := [0x9], fault := some .txOverlap } ∧
      step { pending with stimulus := [0x9], fault := some .txOverlap } = .fault (.marked .txOverlap)) :=
  ⟨⟨witness_Inv [0x7] none, rfl⟩, witness_Inv [0x9] (some .txOverlap), rfl⟩

/-- A poll that finds nothing while a reply is leaving is within the discipline. -/
theorem witness_StepKeepsDiscipline_idlePoll :
    Inv { sending with stimulus := [0x3] } ∧ Disciplined { sending with stimulus := [0x3] } ∧
      HalfDuplex { sending with stimulus := [0x3] } ∧
      (∀ rest, decodeEvent [0x3] = .ok (.pePoll, rest) → sending.pendingLen ≠ 0 → sending.txState = .idle) ∧
      ∃ t, step { sending with stimulus := [0x3] } = .next t :=
  ⟨inv_offered (inv_of_fields (s := sending) (by decide) (by decide) (by decide) (by decide)) [0x3] none,
    ⟨fun h => absurd rfl h, fun h => absurd h (by decide : ¬ (sending.pePhase = .verify ∨ sending.pePhase = .dispatch))⟩,
    fun _ => rfl, fun _ _ h => absurd rfl h, _, rfl⟩

theorem witness_StepKeepsDiscipline :
    Inv { pending with stimulus := [0x3] } ∧ Disciplined { pending with stimulus := [0x3] } ∧
      HalfDuplex { pending with stimulus := [0x3] } ∧
      (∀ rest, decodeEvent [0x3] = .ok (.pePoll, rest) → pending.pendingLen ≠ 0 →
        { pending with stimulus := [0x3] }.txState = .idle) ∧
      ∃ t, step { pending with stimulus := [0x3] } = .next t :=
  ⟨witness_Inv [0x3] none, witness_Disciplined [0x3], fun h => absurd rfl h, fun _ _ _ => rfl, _, rfl⟩

theorem witness_DisciplineExcludesOverlap :
    Disciplined { pending with stimulus := [0x9] } ∧ pending.fault ≠ some .txOverlap ∧
      ∃ t, step { pending with stimulus := [0x9] } = .next t :=
  ⟨witness_Disciplined [0x9], by decide, _, rfl⟩

theorem witness_AddressWriters :
    after (.bcUuidSetAddress 7) (dispatching [] 5) (fun t => t.myAddress) = some 7 ∧
      after .bcUuidResetAddress (dispatching [] 5) (fun t => t.myAddress) = some 0 ∧
      after .bcResetAllAddresses (dispatching [] 5) (fun t => t.myAddress) = some 0 ∧
      after .peDispatch (dispatching [0x00, 0x00, 0x03, 0x2A] 5) (fun t => t.myAddress) = some 0 ∧
      after .reset (device 5) (fun t => t.myAddress) = some 0 := by
  decide

theorem witness_BufferWriters :
    (∃ t, exec (.rxByte 0x05) (device 5) = .next t) ∧
      (∃ t, exec .pePoll pending = .next t ∧ ¬ Dispatches .pePoll ∧ ∀ b, Instr.pePoll ≠ .rxByte b) ∧
      after .peDispatch (dispatching [0x05, 0x97] 5) (fun t => decide (t.tx ≠ [])) = some true :=
  ⟨⟨_, rfl⟩, ⟨_, rfl, fun h => h.elim (by simp) (fun h => h .cfg0 _ rfl), fun _ => by simp⟩, by decide +kernel⟩

theorem witness_PreemptiveFrame :
    Preemptive .tick ∧ (∃ t, exec .tick pending = .next t) ∧ pending.heartbeatSuppress = true :=
  ⟨.inr (.inr (.inr (.inr rfl))), ⟨_, rfl⟩, rfl⟩

theorem witness_CooperativeFrame : ¬ Preemptive .pePoll ∧ ∃ t, exec .pePoll pending = .next t :=
  ⟨by simp [Preemptive], _, rfl⟩

theorem witness_TraceOnlyGrows : ∃ t, exec .tick pending = .next t := ⟨_, rfl⟩

theorem witness_ConfigurationFixed : ∃ t, exec .pePoll pending = .next t := ⟨_, rfl⟩

theorem witness_ReceiveByteEffect :
    (sending.fault = none ∧ sending.rxEnable = false) ∧
      (pending.fault = none ∧ pending.rxEnable = true ∧ pending.rxOffset < pending.cfg.bufSize) ∧
      (({ pending with rxOffset := 31 } : State).fault = none ∧ ({ pending with rxOffset := 31 } : State).rxEnable = true ∧
        ({ pending with rxOffset := 31 } : State).rxOffset < ({ pending with rxOffset := 31 } : State).cfg.bufSize) := by
  decide

/-- Device 5 after the bytes `bs` of a burst. -/
def received (bs : List Byte) : State :=
  { device 5 with rx := Memory.writeAll [] 0 bs, rxOffset := bs.length, timerArmed := true }

theorem witness_ReceiveTimeoutEffect :
    (received [0x05, 0x97]).fault = none ∧ (received [0x05, 0x97]).timerArmed = true ∧
      (received [0x05, 0x97]).overflowFlag = false ∧ 1 < (received [0x05, 0x97]).rxOffset ∧
      ([0x05] : List Byte).length = (received [0x05, 0x97]).cfg.addrLen ∧
      (received [0x05, 0x97]).cfg.addrLen ≤ (received [0x05, 0x97]).cfg.bufSize ∧
      ∀ k < ([0x05] : List Byte).length, (received [0x05, 0x97]).rx.read (0 + k) = ([0x05] : List Byte)[k]? := by
  decide

/-- The premise on the leading address says nothing of a burst of one byte. -/
theorem witness_ReceiveTimeoutEffect_short :
    (received [0x05]).fault = none ∧ (received [0x05]).timerArmed = true ∧ ¬ (1 < (received [0x05]).rxOffset) := by
  decide

theorem witness_PollEffect :
    (pending.fault = none ∧ pending.pePhase = .idle ∧ pending.pendingLen ≠ 0) ∧
      ((device 5).pePhase = .idle ∧ (device 5).pendingLen = 0) := by
  decide

theorem witness_SuspendEffect :
    ({ pending with pePhase := .latched } : State).fault = none ∧
      ({ pending with pePhase := .latched } : State).pePhase = .latched := by
  decide

/-- Device 5 about to verify the frame `f`. -/
def verifying (f : List Byte) : State :=
  { device 5 with rx := Memory.writeAll [] 0 f, peLen := f.length, pePhase := .verify, rxEnable := false }

theorem witness_VerifyEffect :
    (verifying [0x05, 0x97]).fault = none ∧ (verifying [0x05, 0x97]).pePhase = .verify ∧
      ([0x05, 0x97] : List Byte).length = (verifying [0x05, 0x97]).peLen ∧
      (verifying [0x05, 0x97]).peLen ≤ (verifying [0x05, 0x97]).cfg.bufSize ∧
      (∀ k < ([0x05, 0x97] : List Byte).length,
        (verifying [0x05, 0x97]).rx.read (0 + k) = ([0x05, 0x97] : List Byte)[k]?) ∧
      csumOk (verifying [0x05, 0x97]).cfg [0x05, 0x97] = true := by
  decide

theorem witness_VerifyEffect_mismatch :
    (verifying [0x05, 0x96]).fault = none ∧ (verifying [0x05, 0x96]).pePhase = .verify ∧
      ([0x05, 0x96] : List Byte).length = (verifying [0x05, 0x96]).peLen ∧
      (verifying [0x05, 0x96]).peLen ≤ (verifying [0x05, 0x96]).cfg.bufSize ∧
      (∀ k < ([0x05, 0x96] : List Byte).length,
        (verifying [0x05, 0x96]).rx.read (0 + k) = ([0x05, 0x96] : List Byte)[k]?) ∧
      csumOk (verifying [0x05, 0x96]).cfg [0x05, 0x96] = false := by
  decide

theorem witness_DispatchEffect :
    Dispatching (dispatching [0x05, 0x00, 0xB8] 5) ∧
      (dispatching [0x05, 0x00, 0xB8] 5).cfg.Valid ∧
      ([0x05] : List Byte).length = (dispatching [0x05, 0x00, 0xB8] 5).cfg.addrLen ∧
      (dispatching [0x05, 0x00, 0xB8] 5).peLen =
        (dispatching [0x05, 0x00, 0xB8] 5).cfg.addrLen + ([0x00] : List Byte).length +
          (dispatching [0x05, 0x00, 0xB8] 5).cfg.csumLen ∧
      (dispatching [0x05, 0x00, 0xB8] 5).peLen ≤ (dispatching [0x05, 0x00, 0xB8] 5).cfg.bufSize ∧
      ∀ k < ([0x05] ++ [0x00] : List Byte).length,
        (dispatching [0x05, 0x00, 0xB8] 5).rx.read (0 + k) = ([0x05] ++ [0x00] : List Byte)[k]? :=
  ⟨⟨rfl, rfl⟩, by decide⟩

theorem witness_SendReadyEffect :
    sending.fault = none ∧ sending.txReadyEn = true ∧ sending.txOffset < sending.cfg.bufSize ∧
      sending.tx.read sending.txOffset = some 0x85 ∧ sending.txOffset + 1 ≠ sending.txLen := by
  decide

/-- The last byte of the same reply. -/
theorem witness_SendReadyEffect_last :
    ({ sending with txOffset := 1 } : State).fault = none ∧ ({ sending with txOffset := 1 } : State).txReadyEn = true ∧
      ({ sending with txOffset := 1 } : State).txOffset < sending.cfg.bufSize ∧
      ({ sending with txOffset := 1 } : State).tx.read 1 = some 0xB1 ∧
      ({ sending with txOffset := 1 } : State).txOffset + 1 = sending.txLen := by
  decide

theorem witness_SendCompleteEffect :
    ({ sending with txReadyEn := false, txCompleteEn := true } : State).fault = none ∧
      ({ sending with txReadyEn := false, txCompleteEn := true } : State).txCompleteEn = true := by
  decide

theorem witness_TickEffect :
    (({ device 5 with hbDiv := 48 } : State).fault = none ∧
        ({ device 5 with hbDiv := 48 } : State).hbDiv + 1 < (device 5).cfg.heartbeatDiv) ∧
      (({ pending with hbDiv := 49 } : State).fault = none ∧
        pending.cfg.heartbeatDiv ≤ ({ pending with hbDiv := 49 } : State).hbDiv + 1 ∧
        ({ pending with hbDiv := 49 } : State).heartbeatSuppress = true) ∧
      (({ device 5 with hbDiv := 49 } : State).fault = none ∧
        (device 5).cfg.heartbeatDiv ≤ ({ device 5 with hbDiv := 49 } : State).hbDiv + 1 ∧
        ({ device 5 with hbDiv := 49 } : State).heartbeatSuppress = false) := by
  decide

/-- `ReadyToReply` and `Dispatching`, of every statement about a frame command. -/
theorem witness_ReadyToReply (a : Addr) : ReadyToReply (dispatching [0x05, 0x97] a) :=
  ⟨⟨rfl, rfl⟩, rfl, (by decide : Config.cfg0.Valid)⟩

theorem witness_IdentityReplies : ReadyToReply (dispatching [0x05, 0x97] 5) := witness_ReadyToReply 5
theorem witness_CounterReplies : ReadyToReply (dispatching [0x05, 0x97] 5) := witness_ReadyToReply 5
theorem witness_CounterResetReply : ReadyToReply (dispatching [0x05, 0x97] 5) := witness_ReadyToReply 5
theorem witness_ResetAddressReply : ReadyToReply (dispatching [0x05, 0x97] 5) := witness_ReadyToReply 5

theorem witness_UuidReplies :
    (ReadyToReply (dispatching [0x05, 0x97] 0) ∧ (dispatching [0x05, 0x97] 0).myAddress = 0) ∧
      (Dispatching (dispatching [0x05, 0x97] 5) ∧ (dispatching [0x05, 0x97] 5).myAddress ≠ 0) :=
  ⟨⟨witness_ReadyToReply 0, rfl⟩, ⟨rfl, rfl⟩, by decide⟩

theorem witness_SetAddressReply :
    ReadyToReply (dispatching [0x05, 0x97] 5) ∧
      ((0 < (1 : Addr).toNat ∧ (1 : Addr).toNat < Config.cfg0.masterAddr.toNat) ∧
        (0 < (0x7F : Addr).toNat ∧ (0x7F : Addr).toNat < Config.cfg0.masterAddr.toNat) ∧
        ¬ (0 < (0 : Addr).toNat ∧ (0 : Addr).toNat < Config.cfg0.masterAddr.toNat) ∧
        ¬ (0 < (0x80 : Addr).toNat ∧ (0x80 : Addr).toNat < Config.cfg0.masterAddr.toNat)) :=
  ⟨witness_ReadyToReply 5, by decide⟩

theorem witness_SilentCommands :
    Dispatching (dispatching [0x05, 0x97] 5) ∧ (dispatching [0x05, 0x97] 5).cfg.appRequestRegistered = false :=
  ⟨⟨rfl, rfl⟩, rfl⟩

/-- Device 5 about to dispatch, with an application that answers `r`. -/
def asking (r : Result) : State := withApplication [r] (dispatching [0x05, 0x97] 5)

theorem witness_AppRequestEffect :
    ((asking .noAnswer).cfg.appRequestRegistered = true ∧ Dispatching (asking .noAnswer) ∧
        applicationAnswer (asking .noAnswer) [0x10] = .noAnswer) ∧
      (ReadyToReply (asking (.reply (List.replicate 30 0xAA))) ∧
        applicationAnswer (asking (.reply (List.replicate 30 0xAA))) [0x10] = .reply (List.replicate 30 0xAA) ∧
        (List.replicate 30 (0xAA : Byte)).length ≤ (asking .noAnswer).cfg.maxPayload) :=
  ⟨⟨rfl, ⟨rfl, rfl⟩, rfl⟩,
    ⟨⟨rfl, rfl⟩, rfl, (by decide : (asking .noAnswer).cfg.Valid)⟩, rfl, by decide +kernel⟩

theorem witness_LongReplyMarks :
    Dispatching (asking (.reply (List.replicate 31 0xAA))) ∧
      applicationAnswer (asking (.reply (List.replicate 31 0xAA))) [0x10] = .reply (List.replicate 31 0xAA) ∧
      (asking .noAnswer).cfg.appRequestRegistered = true ∧
      (asking .noAnswer).cfg.maxPayload < (List.replicate 31 (0xAA : Byte)).length :=
  ⟨⟨rfl, rfl⟩, rfl, rfl, by decide⟩

theorem witness_OverlapMarks :
    Dispatching { sending with pePhase := .dispatch } ∧ sending.cfg.Valid ∧
      ({ sending with pePhase := .dispatch } : State).txState ≠ .idle :=
  ⟨⟨rfl, rfl⟩, by decide⟩

/-- An unassigned device in the same state, with an application that answers as much as fits. -/
theorem witness_OverlapMarks_unassigned :
    Dispatching (withApplication [.reply (List.replicate 30 0xAA)] { sending with pePhase := .dispatch, myAddress := 0 }) ∧
      (withApplication [] sending).cfg.Valid ∧ (withApplication [] sending).txState ≠ .idle ∧
      (withApplication [] sending).cfg.appRequestRegistered = true ∧
      applicationAnswer (withApplication [.reply (List.replicate 30 0xAA)] sending) [0x10] =
        .reply (List.replicate 30 0xAA) ∧
      (List.replicate 30 (0xAA : Byte)).length ≤ (withApplication [] sending).cfg.maxPayload :=
  ⟨⟨rfl, rfl⟩, by decide⟩

/-- R273: set-address assigns before the transmitter's start sets the mark. -/
theorem test_overlap_setAddress :
    after (.bcUuidSetAddress 7) { sending with pePhase := .dispatch } (fun t => (t.myAddress, t.fault, t.trace)) =
      some (7, some .txOverlap, []) := by
  decide

theorem witness_ApplicationBroadcasts : Dispatching (dispatching [0x00, 0xFE] 5) := ⟨rfl, rfl⟩
theorem witness_SegmentAndResetAll : Dispatching (dispatching [0x00, 0xFE] 5) := ⟨rfl, rfl⟩

theorem witness_BusAssertEffect :
    Dispatching (dispatching [0x00, 0xFE] 5) ∧
      ((dispatching [0x00, 0xFE] 5).uuid.toNat % 2 ^ (1 : Byte).toNat = leVal (([0x00] : List Byte).take 4) ∧
        (dispatching [0x00, 0xFE] 5).uuid.toNat % 2 ^ (32 : Byte).toNat =
          leVal (([0x78, 0x56, 0x34, 0x12] : List Byte).take 4) ∧
        ¬ (1 ≤ (0 : Byte).toNat) ∧ ¬ ((33 : Byte).toNat ≤ 32)) :=
  ⟨⟨rfl, rfl⟩, by decide⟩

theorem witness_FullMaskAssertsOwnUuid :
    Dispatching (dispatching [0x00, 0xFE] 5) ∧
      ([0x78, 0x56, 0x34, 0x12] = le (dispatching [0x00, 0xFE] 5).cfg.uuid.toNat 4 ∧
        ([0x79, 0x56, 0x34, 0x12] : List Byte).length = 4 ∧
        [0x79, 0x56, 0x34, 0x12] ≠ le (dispatching [0x00, 0xFE] 5).cfg.uuid.toNat 4) :=
  ⟨⟨rfl, rfl⟩, by decide⟩

theorem witness_NotEnabledHasNoStep :
    pending.fault = none ∧
      ∀ i ∈ ([.rxTimeout, .peSuspendRx, .peVerify, .peDispatch, .txReady, .txComplete, .ping] : List Instr),
        enabledWhen i pending = false := by
  decide

theorem witness_MarkedDeviceOnlyResets :
    ({ pending with fault := some .replyTooLong } : State).fault = some .replyTooLong ∧ Instr.tick ≠ .reset := by
  decide

/-- The premises the burst statements share: nothing received yet, reception enabled. -/
abbrev BurstStart (s : State) : Prop :=
  s.fault = none ∧ s.cfg.Valid ∧ s.rxEnable = true ∧ s.rxOffset = 0 ∧ s.overflowFlag = false

theorem witness_BurstBecomesPending :
    BurstStart pending ∧ ∀ f ∈ ([[0x05, 0x97], 0x00 :: List.replicate 30 0x01] : List (List Byte)),
      2 ≤ f.length ∧ f.length < pending.cfg.bufSize ∧
        (addrOf (f.take pending.cfg.addrLen) = pending.myAddress ∨
          addrOf (f.take pending.cfg.addrLen) = pending.cfg.broadcastAddr) := by
  decide

theorem witness_UnacceptedBurstIgnored :
    BurstStart pending ∧ ∀ f ∈ ([[0x05], 0x06 :: List.replicate 30 0x01] : List (List Byte)),
      f ≠ [] ∧ f.length < pending.cfg.bufSize ∧
        (f.length = 1 ∨ (addrOf (f.take pending.cfg.addrLen) ≠ pending.myAddress ∧
          addrOf (f.take pending.cfg.addrLen) ≠ pending.cfg.broadcastAddr)) := by
  decide

theorem witness_OverflowCountedOnce :
    BurstStart pending ∧ pending.cfg.bufSize ≤ (List.replicate 32 (0x05 : Byte)).length := by
  decide

theorem witness_ValidFrameReachesDispatch :
    BurstStart pending ∧ pending.pePhase = .idle ∧
      ((0x05 : Addr).toNat < 256 ^ pending.cfg.addrLen ∧ (0x05 : Addr) = pending.myAddress) ∧
      ((0x00 : Addr).toNat < 256 ^ pending.cfg.addrLen ∧ (0x00 : Addr) = pending.cfg.broadcastAddr) ∧
      pending.cfg.addrLen + (List.replicate 29 (0x10 : Byte)).length + 1 < pending.cfg.bufSize := by
  decide

theorem witness_ReplyTransmitted :
    sending.fault = none ∧ sending.txState = .sending ∧ sending.txOffset = 0 ∧
      sending.txLen = ([0x85, 0xB1] : List Byte).length ∧ 0 < ([0x85, 0xB1] : List Byte).length ∧
      ([0x85, 0xB1] : List Byte).length ≤ sending.cfg.bufSize ∧
      ∀ k < ([0x85, 0xB1] : List Byte).length, sending.tx.read (0 + k) = ([0x85, 0xB1] : List Byte)[k]? := by
  decide

theorem witness_SuppressedHeartbeatFrozen : pending.fault = none ∧ pending.heartbeatSuppress = true := by
  decide

theorem witness_WiredOrOfAssertions :
    ∃ t, List.Forall₂ (fun d d' => Dispatching d ∧ exec (.bcBusAssert 8 [0x78]) d = .next d')
      [dispatching [0x00, 0xFE] 5] [t] :=
  ⟨_, .cons ⟨⟨rfl, rfl⟩, rfl⟩ .nil⟩

theorem witness_SearchFindsUuid : ([State.reset] : Devices) ≠ [] := by decide

/-- A chain of three: device 5 sends `85 B1`, device 6 is quiet, device 7 lies behind 6. -/
def chain (open6 : Bool) (drives6 : Bool) : Devices :=
  [sending, { device 6 with segmentEnable := open6, lineDrive := drives6 }, device 7]

/-- Each clause of the statement: a disabled segment, a quiet line, a driven line, and a device's own byte. -/
theorem witness_DisabledSegmentHidesDevices :
    (chain false false)[1]?.map (fun d => d.segmentEnable) = some false ∧
      (∀ d ∈ [device 5, device 6], d.segmentEnable = true ∧ d.lineDrive = false) ∧
      (connected (chain true false) 0 2 = true ∧ (chain true false)[0]?.map (fun d => d.lineDrive) = some true) ∧
      after .txReady sending (fun t => t.txOffset) = some 1 ∧ sending.tx.read sending.txOffset = some 0x85 ∧
      connected (chain false false) 0 2 = false ∧ connected (chain true false) 0 1 = true := by
  decide

/-! ## Several devices (R322) -/

/-- A byte reaches the device behind an enabled segment and not the one behind a disabled segment. -/
theorem test_masterSends :
    (masterSends (fun _ => []) 0x05 [device 5, { device 6 with segmentEnable := false }, device 7]).map
      (fun d => d.rxOffset) = [1, 1, 0] := by
  decide

/-- The byte device 5 hands over is heard by the others, not by itself, and not behind a disabled segment. -/
theorem test_deviceOperates :
    (deviceOperates (fun _ => []) 0 .txReady (chain true false)).map (fun d => (d.rx, d.txOffset)) =
        [([], 1), ([(0, 0x85)], 0), ([(0, 0x85)], 0)] ∧
      (deviceOperates (fun _ => []) 0 .txReady (chain false false)).map (fun d => d.rx) = [[], [(0, 0x85)], []] := by
  decide

/-- With a second device driving the line each listener hears what the environment chose. -/
theorem test_collision :
    (deviceOperates (fun j => if j = 2 then [0xDE, 0xAD] else []) 0 .txReady (chain true true)).map (fun d => d.rx) =
      [[], [], [(0, 0xDE), (1, 0xAD)]] := by
  decide

/-- A line is made of legal configurations with equal bus-wide parameters; the UUID and the protocol id may differ. -/
theorem test_powerUp :
    (powerUp [.cfg0, { Config.cfg0 with uuid := 7, protocolId := 9 }]).isSome = true ∧
      powerUp [.cfg0, wideConfig] = none ∧ powerUp [{ Config.cfg0 with uuid := 0 }] = none := by
  decide

/-- The search of R257 (c) on two devices finds one of their UUIDs. -/
theorem test_searchUuid :
    searchUuid [{ State.reset with cfg := { Config.cfg0 with uuid := 0xDEADBEEF } }, State.reset] 32 = 0x12345678 := by
  decide +kernel

end Sys2Proof.Tests
end

/-! SUPPORT. The statements about the scope (00_scope.md): what one step runs, when an operation has a step, and that
the output trace only grows. -/

namespace Sys2Proof.Machine

/-! ## What one step runs (R12, R80, R130) -/

/-- Settles O8, by the three things a step can do. -/
theorem stepRunsDecodedInstruction : Obligations.StepRunsDecodedInstruction := by
  intro s
  rcases step_cases s with ⟨hs, hwait⟩ | ⟨e, hs, hd, -⟩ | ⟨j, rest', hs, hd, hrun⟩
  · exact ⟨fun _ => hwait, fun i rest h => by simp [hs, decodeEvent] at h⟩
  · exact ⟨fun h => absurd h hs, fun i rest h => by simp [hd] at h⟩
  · refine ⟨fun h => absurd h hs, fun i rest h => ?_⟩
    obtain ⟨rfl, rfl⟩ : j = i ∧ rest' = rest := by simpa [hd] using h
    exact hrun

/-! ## When an operation has a step (R12) -/

/-- Every instruction but `RESET` is one effect, performed under its row of R12's "enabled when" column. -/
theorem exec_eq_perform {i : Instr} (hi : i ≠ .reset) :
    ∃ f : State → Except Fault State, ∀ s, exec i s = perform (enabledWhen i s) s f := by
  cases i with
  | reset => exact absurd rfl hi
  | _ => exact ⟨_, fun _ => rfl⟩

/-- Settles O50: `RESET` is always enabled, and every other instruction is performed under its enabling condition. -/
theorem notEnabledHasNoStep : Obligations.NotEnabledHasNoStep := by
  intro i s hf he
  have hi : i ≠ .reset := by
    rintro rfl
    simp [enabledWhen] at he
  obtain ⟨f, hexec⟩ := exec_eq_perform hi
  rw [hexec]
  exact perform_eq_fault.2 (.inr (.inl ⟨hf, he, rfl⟩))

/-! ## The output trace only grows (R14, R16)

One lemma per effect, each read off the effect's own inversion lemma. -/

/-- A received byte emits the timer's restart, an ignored one nothing (R150, R153). -/
theorem receiveByte_trace_prefix {b : Byte} {s t : State} (h : receiveByte b s = .ok t) : s.trace <+: t.trace := by
  rcases receiveByte_eq_ok h with ⟨-, rfl⟩ | ⟨-, -, rfl⟩
  · exact List.prefix_rfl
  · exact List.prefix_append _ _

/-- The end of a burst emits nothing (R155). -/
theorem endBurst_trace {s t : State} (h : endBurst s = .ok t) : t.trace = s.trace := by
  obtain ⟨accepted, -, rfl⟩ := endBurst_eq_ok h
  rfl

/-- Taking over a pending frame emits nothing (R171). -/
@[simp] theorem pollFrame_trace (s : State) : (pollFrame s).trace = s.trace := by
  unfold pollFrame
  split <;> rfl

/-- Suspending or resuming reception emits at most its own event (R37). -/
theorem setRxEnable_trace_prefix (v : Bool) (s : State) : s.trace <+: (setRxEnable v s).trace :=
  List.prefix_append _ _

/-- Verification emits nothing for a good frame and the resumption for a bad one (R173). -/
theorem verifyFrame_trace_prefix {s t : State} (h : verifyFrame s = .ok t) : s.trace <+: t.trace := by
  obtain ⟨f, -, ⟨-, rfl⟩ | ⟨-, rfl⟩⟩ := verifyFrame_eq_ok h
  · exact List.prefix_rfl
  · exact setRxEnable_trace_prefix true (raiseError .checksumMismatch s)

/-- A send-ready event emits the byte it hands over (R274). -/
theorem sendByte_trace_prefix {s t : State} (h : sendByte s = .ok t) : s.trace <+: t.trace := by
  obtain ⟨b, -, -, rfl⟩ := sendByte_eq_ok h
  exact List.prefix_append _ _

/-- The end of a reply emits the release of the line, then the resumption (R275). -/
theorem releaseLine_trace_prefix (s : State) : s.trace <+: (releaseLine s).trace :=
  (List.prefix_append s.trace [.lineDrive false]).trans
    (setRxEnable_trace_prefix true (emit (.lineDrive false) { s with txCompleteEn := false, lineDrive := false }))

/-- A tick emits at most the heartbeat's toggle (R290). -/
theorem tickOnce_trace_prefix (s : State) : s.trace <+: (tickOnce s).trace := List.prefix_append _ _

/-- Starting a reply emits the suspension of reception, then the claim of the line (R270). -/
theorem claimLine_trace_prefix (n : Nat) (s : State) : s.trace <+: (claimLine n s).trace :=
  (setRxEnable_trace_prefix false s).trans (List.prefix_append _ _)

/-- A handler leaves the fault mark alone. -/
theorem HandlerEffect.fault_eq {s u : State} (h : HandlerEffect s u) : u.fault = s.fault := by
  rw [h.frame]

/-- The result handling emits nothing where it marks the device, and otherwise what resumption or the reply's start
emits (R175, R178, R270). -/
theorem finishDispatch_trace_prefix {u t : State} {r : Result} (hf : u.fault = none)
    (h : finishDispatch (u, r) = .ok t) : u.trace <+: t.trace := by
  rcases finishDispatch_eq_ok hf h with ⟨-, rfl⟩ | ⟨m, rfl, -⟩ | ⟨p, -, -, -, rfl⟩
  · exact List.prefix_append _ _
  · exact List.prefix_rfl
  · exact claimLine_trace_prefix (u.cfg.addrLen + p.length + u.cfg.csumLen) (u.withBuffer .tx _)

/-- What a dispatch emits is what the handler emits and then what the result handling emits. -/
theorem dispatch_trace_prefix {s u t : State} {r : Result} (hf : s.fault = none) (he : HandlerEffect s u)
    (h : finishDispatch (u, r) = .ok t) : s.trace <+: t.trace := by
  obtain ⟨events, hev⟩ := he.events
  have hhandler : s.trace <+: u.trace := ⟨events, hev.symm⟩
  exact hhandler.trans (finishDispatch_trace_prefix (he.fault_eq.trans hf) h)

/-- The trace after an operation other than `RESET` begins with the trace before it. -/
theorem exec_trace_prefix {i : Instr} {s t : State} (hn : exec i s = .next t) (hi : i ≠ .reset) :
    s.trace <+: t.trace := by
  rcases exec_cases hn with ⟨hreset, -⟩ | ⟨b, -, hrx⟩ | ⟨-, hend⟩ | ⟨-, -, rfl⟩ | ⟨-, -, rfl⟩ | ⟨-, -, hver⟩ |
    ⟨-, -, hsend⟩ | ⟨-, -, rfl⟩ | ⟨-, rfl⟩ | ⟨-, hf, -, u, r, he, hfin, -⟩
  · exact absurd hreset hi
  · exact receiveByte_trace_prefix hrx
  · simp [endBurst_trace hend]
  · simp
  · exact setRxEnable_trace_prefix false s
  · exact verifyFrame_trace_prefix hver
  · exact sendByte_trace_prefix hsend
  · exact releaseLine_trace_prefix s
  · exact tickOnce_trace_prefix s
  · exact dispatch_trace_prefix hf he hfin

/-- Settles O25: what follows the old trace in the new one are the events the operation emits. -/
theorem traceOnlyGrows : Obligations.TraceOnlyGrows := by
  intro i s t hn hi
  obtain ⟨events, h⟩ := exec_trace_prefix hn hi
  exact ⟨events, h.symm⟩

end Sys2Proof.Machine

/-! SUPPORT. The statements about the state (10_state.md): the invariant and the discipline along every step, who writes
the bus address and the configuration, what the preemptive context leaves alone, reset and the fault mark. -/

namespace Sys2Proof.Machine

/-! ## The handler of each frame command (log 8)

A frame command is its handler followed by the result handling, and both dispatch listings run the handler of the command
that the pattern tables read. -/

/-- The handler a frame command dispatches to; an operation dispatches to none, and `silent` stands in for it. -/
def handlerOf : Instr → Handler
  | .ping => handlePing
  | .deviceInfo => handleDeviceInfo
  | .getName => handleGetName
  | .getUptime => handleGetUptime
  | .getVersion => handleGetVersion
  | .getCountCorrect => handleGetCountCorrect
  | .getCountOverflow => handleGetCountOverflow
  | .getCountLost => handleGetCountLost
  | .getCountMismatch => handleGetCountMismatch
  | .getCountAll => handleGetCountAll
  | .resetCounts => handleResetCounts
  | .getUuid => handleGetUuid
  | .getExtendedInfo => handleGetExtendedInfo
  | .baseReserved2 code => handleBaseReserved2 code
  | .baseReservedN rest => handleBaseReservedN rest
  | .appRequest p => handleAppRequest p
  | .bcLegacy => handleBcLegacy
  | .bcApp rest => handleBcApp rest
  | .bcUuidRequest => handleBcUuidRequest
  | .bcUuidPing => handleBcUuidPing
  | .bcUuidGetAddress => handleBcUuidGetAddress
  | .bcUuidResetAddress => handleBcUuidResetAddress
  | .bcUuidSetAddress a => handleBcUuidSetAddress a
  | .bcUuidReserved rest => handleBcUuidReserved rest
  | .bcEnableNeighbours => handleBcEnableNeighbours
  | .bcDisableNeighbours => handleBcDisableNeighbours
  | .bcResetAllAddresses => handleBcResetAllAddresses
  | .bcBusAssert m bytes => handleBcBusAssert m bytes
  | .bcReserved p => handleBcReserved p
  | .reset | .rxByte _ | .rxTimeout | .pePoll | .peSuspendRx | .peVerify | .peDispatch | .txReady
  | .txComplete | .tick => silent

/-- A frame command, whose encoding is a payload, performs the dispatch of its handler where `PE_DISPATCH` is enabled. -/
theorem exec_frameCommand {c : Config} {i : Instr} (hi : ∀ ds, encode c i ≠ .event ds) (s : State) :
    exec i s = perform (s.pePhase = .dispatch) s (fun s => finishDispatch (handlerOf i s)) := by
  cases i with
  | reset | rxByte | rxTimeout | pePoll | peSuspendRx | peVerify | peDispatch | txReady | txComplete | tick =>
    exact absurd rfl (hi _)
  | _ => rfl

/-- A frame command of a device that is dispatching. -/
theorem exec_frameCommand_of_dispatching {c : Config} {i : Instr} {s : State} (hs : Dispatching s)
    (hi : ∀ ds, encode c i ≠ .event ds) : exec i s = toOutcome (finishDispatch (handlerOf i s)) := by
  obtain ⟨hfault, hphase⟩ := hs
  rw [exec_frameCommand hi, perform_enabled hfault (decide_eq_true hphase)]


/-- Only the three address writers change the bus address, each to the value its rule gives (R33, R243, R244, R249). -/
theorem handlerOf_myAddress (i : Instr) (s : State) :
    (handlerOf i s).1.myAddress = s.myAddress ∨ (i = .bcUuidResetAddress ∧ (handlerOf i s).1.myAddress = 0) ∨
      (i = .bcResetAllAddresses ∧ (handlerOf i s).1.myAddress = 0) ∨
      ∃ a, i = .bcUuidSetAddress a ∧ (handlerOf i s).1.myAddress = a := by
  cases i with
  | appRequest p =>
    left
    show (handleAppRequest p s).1.myAddress = s.myAddress
    unfold handleAppRequest askApplication
    split
    · simp only [emit_appAnswers]
      cases s.appAnswers <;> rfl
    · rfl
  | bcUuidResetAddress => exact .inr (.inl ⟨rfl, rfl⟩)
  | bcResetAllAddresses => exact .inr (.inr (.inl ⟨rfl, rfl⟩))
  | bcUuidSetAddress a =>
    rcases hok : newAddressOk s.cfg a with _ | _
    · exact .inl (by simp [handlerOf, handleBcUuidSetAddress, hok])
    · exact .inr (.inr (.inr ⟨a, rfl, by simp [handlerOf, handleBcUuidSetAddress, hok]⟩))
  | bcBusAssert m bytes =>
    left
    show (handleBcBusAssert m bytes s).1.myAddress = s.myAddress
    unfold handleBcBusAssert
    split
    · dsimp only
      split <;> rfl
    · rfl
  | _ => exact .inl rfl

/-- The unicast listing runs the handler of the command that the unicast table reads (R108, R199). -/
theorem processRequest_eq_handlerOf (p : List Byte) (s : State) :
    processRequest p s = handlerOf (decodeRequest s.cfg p) s := by
  match p with
  | [] => rfl
  | [b] => by_cases hb : b = 0#8 <;> simp [processRequest, decodeRequest, handlerOf, hb]
  | [b, code] =>
    by_cases hb : b = 0#8
    · simp only [processRequest, processBase, decodeRequest, apply_ite handlerOf, ite_apply]
      simp [hb, handlerOf]
    · simp [processRequest, decodeRequest, handlerOf, hb]
  | b :: b1 :: b2 :: rest => by_cases hb : b = 0#8 <;> simp [processRequest, decodeRequest, handlerOf, hb]

/-- The UUID-addressed listing runs the handler of the command that the broadcast table reads (R110, R230): what follows
the device's own UUID selects the row, and without it the row is the reserved one. -/
theorem processUuid_eq_handlerOf {s : State} (hp : s.cfg.allDevices ≠ s.cfg.protocolId) (ops : List Byte) :
    processUuid ops s = handlerOf (decodeBroadcast s.cfg (s.cfg.allDevices :: s.cfg.subUuid :: ops)) s := by
  by_cases h0 : ops = []
  · simp [h0, hp, handlerOf, processUuid, decodeBroadcast]
  simp only [processUuid, decodeBroadcast, apply_ite handlerOf, ite_apply]
  by_cases h4 : ops.take 4 = uuidField s.cfg
  · obtain ⟨tail, rfl⟩ : ∃ tail, ops = uuidField s.cfg ++ tail := ⟨ops.drop 4, by rw [← h4, List.take_append_drop]⟩
    have hfour : (uuidField s.cfg).drop 4 = [] := List.drop_eq_nil_of_le (by simp)
    have hfive : (uuidField s.cfg).drop 5 = [] := List.drop_eq_nil_of_le (by simp)
    have htake : (uuidField s.cfg).take 5 = uuidField s.cfg := List.take_of_length_le (by simp)
    match tail with
    | [] => simp [hp, hfour, uuidHead, handlerOf, List.ne_nil_of_length_pos]
    | key :: operand =>
      have hlen : 4 + (operand.length + 1) + 1 + 1 = 7 + s.cfg.addrLen ↔ operand.length = s.cfg.addrLen := by omega
      have hroom : 1 ≤ 4 + (operand.length + 1) := by omega
      simp [hp, uuidHead, handlerOf, List.take_append, List.drop_append, htake, hfive, hlen, hroom, and_comm]
  · have hfive : ∀ k, ops.take 5 ≠ uuidField s.cfg ++ [k] := fun k h =>
      h4 (by simpa [List.take_take] using congrArg (List.take 4) h)
    have hne : ∀ tail, ops ≠ uuidField s.cfg ++ tail := by
      rintro tail rfl
      exact h4 (List.take_left' (uuidField_length _))
    have hself : ops ≠ uuidField s.cfg := by simpa using hne []
    have hlen : 1 ≤ ops.length := List.length_pos_iff.2 h0
    simp [hp, h0, h4, hne, hself, hfive, hlen, uuidHead, handlerOf]

/-- The broadcast listing runs the handler of the command that the broadcast table reads (R109, R110, R230). -/
theorem processBroadcast_eq_handlerOf (p : List Byte) (s : State) :
    processBroadcast p s = handlerOf (decodeBroadcast s.cfg p) s := by
  match p with
  | [] => rfl
  | b :: rest =>
    by_cases hp : b = s.cfg.protocolId
    · simp [processBroadcast, decodeBroadcast, handlerOf, hp]
    by_cases ha : b = s.cfg.allDevices
    · subst ha
      match rest with
      | [] => simp [processBroadcast, decodeBroadcast, handlerOf, hp, uuidHead]
      | sub :: ops =>
        by_cases hu : sub = s.cfg.subUuid
        · subst hu
          rw [← processUuid_eq_handlerOf hp]
          simp [processBroadcast, processAllDevices, hp]
        · simp only [processBroadcast, processAllDevices, decodeBroadcast, apply_ite handlerOf, ite_apply]
          cases ops <;> simp [hp, hu, uuidHead, handlerOf]
    · simp [processBroadcast, decodeBroadcast, handlerOf, hp, ha, uuidHead]

/-- Both dispatch listings run the handler of the command that the pattern tables read (R107 to R110, R175). -/
theorem processFrame_eq_handlerOf (a : Addr) (p : List Byte) (s : State) :
    processFrame a p s = handlerOf (commandOf s.cfg a p) s := by
  unfold processFrame commandOf
  split
  · exact processBroadcast_eq_handlerOf p s
  · exact processRequest_eq_handlerOf p s

/-- Every handler's effect is one that a handler may have. -/
theorem handlerOf_effect (i : Instr) (s : State) : HandlerEffect s (handlerOf i s).1 := by
  cases i with
  | resetCounts => exact handleResetCounts_effect s
  | appRequest p => exact handleAppRequest_effect p s
  | bcLegacy | bcApp => exact .emit _ s
  | bcUuidResetAddress | bcResetAllAddresses => exact clearAddress_effect s
  | bcUuidSetAddress a => exact handleBcUuidSetAddress_effect a s
  | bcUuidReserved | bcReserved => exact malformed_effect s
  | bcEnableNeighbours | bcDisableNeighbours => exact setSegment_effect _ s
  | bcBusAssert m bytes => exact handleBcBusAssert_effect m bytes s
  | _ => exact .refl s

/-- A handler leaves the configuration alone. -/
theorem HandlerEffect.cfg_eq {s u : State} (h : HandlerEffect s u) : u.cfg = s.cfg := by
  rw [h.frame]

/-- A handler leaves the stimulus alone. -/
theorem HandlerEffect.stimulus_eq {s u : State} (h : HandlerEffect s u) : u.stimulus = s.stimulus := by
  rw [h.frame]

/-- A handler leaves the phase alone. -/
theorem HandlerEffect.pePhase_eq {s u : State} (h : HandlerEffect s u) : u.pePhase = s.pePhase := by
  rw [h.frame]

/-- A handler leaves the receive enable alone. -/
theorem HandlerEffect.rxEnable_eq {s u : State} (h : HandlerEffect s u) : u.rxEnable = s.rxEnable := by
  rw [h.frame]

/-- A handler leaves the transmitter's state alone. -/
theorem HandlerEffect.txState_eq {s u : State} (h : HandlerEffect s u) : u.txState = s.txState := by
  rw [h.frame]
  rfl

/-! ## What has been written of a buffer (R48, R49) -/

/-- Nothing need have been written for the first 0 bytes. -/
theorem Written.zero (m : Memory) : Written m 0 := fun j h => absurd h (Nat.not_lt_zero j)

/-- What is written up to an index is written up to every smaller one. -/
theorem Written.mono {m : Memory} {k n : Nat} (h : Written m n) (hk : k ≤ n) : Written m k :=
  fun j hj => h j (lt_of_lt_of_le hj hk)

/-- A write loses nothing that has been written. -/
theorem Written.write {m : Memory} {n : Nat} (h : Written m n) (i : Nat) (b : Byte) : Written (m.write i b) n := by
  intro j hj
  rw [Memory.read_write]
  split
  · rfl
  · exact h j hj

/-- A write behind what has been written extends it by one byte. -/
theorem Written.write_succ {m : Memory} {n : Nat} (h : Written m n) (b : Byte) : Written (m.write n b) (n + 1) := by
  intro j hj
  rw [Memory.read_write]
  split
  · rfl
  · exact h j (by omega)

/-- A block write from index 0 leaves the whole block written. -/
theorem written_writeAll (m : Memory) (bs : List Byte) : Written (m.writeAll 0 bs) bs.length := by
  intro j hj
  rw [Memory.read_writeAll, if_pos (by omega)]
  simpa using hj

/-- A written block inside its buffer can be read. -/
theorem Written.memRead {s : State} {sp : Space} {m a n : Nat} (h : Written (s.buffer sp) m) (ha : a + n ≤ m)
    (hm : m ≤ s.cfg.bufSize) : ∃ bs, Machine.memRead s sp a n = .ok bs :=
  memRead_of_written (by omega) fun k hk => h (a + k) (by omega)

/-! ## The transmitter's state (R27) -/

theorem txState_eq_idle {s : State} : s.txState = .idle ↔ s.txReadyEn = false ∧ s.txCompleteEn = false := by
  unfold State.txState
  cases s.txReadyEn <;> cases s.txCompleteEn <;> simp

theorem txState_eq_sending {s : State} : s.txState = .sending ↔ s.txReadyEn = true ∧ s.txCompleteEn = false := by
  unfold State.txState
  cases s.txReadyEn <;> cases s.txCompleteEn <;> simp

theorem txState_eq_bothEnabled {s : State} : s.txState = .bothEnabled ↔ s.txReadyEn = true ∧ s.txCompleteEn = true := by
  unfold State.txState
  cases s.txReadyEn <;> cases s.txCompleteEn <;> simp

/-- With the send-ready notification enabled the transmitter is sending (R50 (iv)). -/
theorem Inv.sending_of_txReadyEn {s : State} (h : Inv s) (hready : s.txReadyEn = true) : s.txState = .sending := by
  have hboth := h.enables_exclusive
  rw [ne_eq, txState_eq_bothEnabled] at hboth
  exact txState_eq_sending.2 ⟨hready, by simpa [hready] using hboth⟩

/-- With the transmission-complete notification enabled the send-ready notification is not (R50 (iv)). -/
theorem Inv.txReadyEn_of_txCompleteEn {s : State} (h : Inv s) (hcomplete : s.txCompleteEn = true) :
    s.txReadyEn = false := by
  have hboth := h.enables_exclusive
  rw [ne_eq, txState_eq_bothEnabled] at hboth
  simpa [hcomplete] using hboth

/-! ## Every operation keeps the invariant (R50)

One lemma per effect; each names only the clauses that speak of a field the effect writes. -/

/-- The invariant says nothing of the stimulus. -/
theorem Inv.withStimulus {s : State} (h : Inv s) (ds : List Digit) : Inv { s with stimulus := ds } := { h with }

/-- The reset state of a legal configuration has the invariant (R62). -/
theorem inv_initial {c : Config} (hc : c.Valid) : Inv (State.initial c) := by
  obtain ⟨⟨-, -, hroom, -⟩, ⟨-, -, haddr⟩, -, -, -, -, -, hdiv⟩ := id hc
  have hbuf : 0 < c.bufSize := by omega
  exact {
    cfg_valid := hc
    rxOffset_lt := hbuf
    pendingLen_range := .inl rfl
    enables_exclusive := by simp [State.txState, State.initial]
    lineDrive_iff := by simp [State.txState, State.initial]
    sending_range := by simp [State.txState, State.initial]
    myAddress_lt := haddr
    peLen_lt := hbuf
    latched_two := fun hphase => absurd rfl hphase
    dispatch_room := fun hphase => nomatch hphase
    hbDiv_lt := hdiv
    armed_empty := fun _ => rfl
    unarmed_clear := fun _ => ⟨rfl, rfl, rfl⟩
    rx_wf := .nil
    tx_wf := .nil
    rx_inside := fun _ hcell => absurd hcell List.not_mem_nil
    tx_inside := fun _ hcell => absurd hcell List.not_mem_nil
    rx_written := .zero _
    rx_full := fun hflag => nomatch hflag
    rx_pending := .zero _
    rx_latched := fun hphase => absurd rfl hphase
    tx_written := by simp [State.txState, State.initial] }

/-- `RESET` establishes the invariant (R350). -/
theorem resetDevice_inv {s : State} (hc : s.cfg.Valid) : Inv (resetDevice s) := { inv_initial hc with }

/-- A received byte keeps the invariant: what the offset has passed is written, and where it wraps all of `RX` is (R150). -/
theorem Inv.receiveByte {b : Byte} {s t : State} (h : Inv s) (hok : Machine.receiveByte b s = .ok t) : Inv t := by
  have hlt := h.rxOffset_lt
  rcases receiveByte_eq_ok hok with ⟨-, rfl⟩ | ⟨-, -, rfl⟩
  · exact h
  · have hnext : Written (s.rx.write s.rxOffset b) (s.rxOffset + 1) := h.rx_written.write_succ b
    exact { h with
      rxOffset_lt := by
        by_cases hw : s.rxOffset + 1 = s.cfg.bufSize <;> simp [wrapsNow, hw] <;> omega
      pendingLen_range := .inl rfl
      armed_empty := fun _ => rfl
      unarmed_clear := fun harmed => nomatch harmed
      rx_wf := Memory.wf_write h.rx_wf _ _
      rx_inside := Memory.inside_write h.rx_inside hlt b
      rx_written := by
        by_cases hw : s.rxOffset + 1 = s.cfg.bufSize
        · simpa [wrapsNow, hw] using Written.zero _
        · simpa [wrapsNow, hw] using hnext
      rx_full := fun hflag => by
        rcases Bool.or_eq_true_iff.1 hflag with hold | hwrap
        · exact (h.rx_full hold).write _ _
        · exact (of_decide_eq_true hwrap : s.rxOffset + 1 = s.cfg.bufSize) ▸ hnext
      rx_pending := .zero _
      rx_latched := fun hphase => (h.rx_latched hphase).write _ _ }

/-- The end of a burst keeps the invariant: an accepted frame is what the offset has passed (R155, R156). -/
theorem Inv.endBurst {s t : State} (h : Inv s) (hok : Machine.endBurst s = .ok t) : Inv t := by
  have hlt := h.rxOffset_lt
  obtain ⟨accepted, hacc, rfl⟩ := endBurst_eq_ok hok
  exact { h with
    rxOffset_lt := by dsimp only; omega
    pendingLen_range := by
      cases accepted with
      | false => simpa using h.pendingLen_range
      | true => exact .inr ⟨(hacc rfl).2, hlt⟩
    armed_empty := fun harmed => nomatch harmed
    unarmed_clear := fun _ => ⟨rfl, rfl, rfl⟩
    rx_written := .zero _
    rx_full := fun hflag => nomatch hflag
    rx_pending := by
      cases accepted with
      | false => simpa using h.rx_pending
      | true => exact h.rx_written }

/-- A poll keeps the invariant: the latched frame is the one that was pending (R171). -/
theorem Inv.pollFrame {s : State} (h : Inv s) : Inv (Machine.pollFrame s) := by
  unfold Machine.pollFrame
  split
  · exact h
  · rename_i hpending
    obtain ⟨htwo, hlt⟩ := h.pendingLen_range.resolve_left hpending
    exact { h with
      pendingLen_range := .inl rfl
      peLen_lt := hlt
      latched_two := fun _ => htwo
      dispatch_room := fun hphase => nomatch hphase
      armed_empty := fun _ => rfl
      rx_pending := .zero _
      rx_latched := fun _ => h.rx_pending }

/-- Suspending reception keeps the invariant (R172). -/
theorem Inv.suspendReception {s : State} (h : Inv s) (hphase : s.pePhase = .latched) :
    Inv (Machine.suspendReception s) :=
  have hbusy : s.pePhase ≠ .idle := by simp [hphase]
  { h with
    latched_two := fun _ => h.latched_two hbusy
    dispatch_room := fun hdispatch => nomatch hdispatch
    rx_latched := fun _ => h.rx_latched hbusy }

/-- Verification keeps the invariant: a frame that verifies has room for address and checksum (R144, R173). -/
theorem Inv.verifyFrame {s t : State} (h : Inv s) (hphase : s.pePhase = .verify)
    (hok : Machine.verifyFrame s = .ok t) : Inv t := by
  have hbusy : s.pePhase ≠ .idle := by simp [hphase]
  obtain ⟨f, hread, ⟨hsum, rfl⟩ | ⟨-, rfl⟩⟩ := verifyFrame_eq_ok hok
  · exact { h with
      latched_two := fun _ => h.latched_two hbusy
      dispatch_room := fun _ => (memRead_eq_ok hread).1 ▸ le_length_of_csumOk hsum
      rx_latched := fun _ => h.rx_latched hbusy }
  · exact { h with
      latched_two := fun hne => absurd rfl hne
      dispatch_room := fun hdispatch => nomatch hdispatch
      rx_latched := fun hne => absurd rfl hne }

/-- Handing a byte over keeps the invariant: the index stays inside the frame until its last byte (R274). -/
theorem Inv.sendByte {s t : State} (h : Inv s) (hready : s.txReadyEn = true) (hok : Machine.sendByte s = .ok t) :
    Inv t := by
  have hsending := h.sending_of_txReadyEn hready
  obtain ⟨hin, hlen⟩ := h.sending_range hsending
  obtain ⟨-, hcomplete⟩ := txState_eq_sending.1 hsending
  have hline : s.lineDrive = true := h.lineDrive_iff.2 (by simp [hsending])
  obtain ⟨b, -, -, rfl⟩ := sendByte_eq_ok hok
  have hstate : (advanceTx (emit (.txByte b) s)).txState = if s.txOffset + 1 = s.txLen then .draining else .sending := by
    by_cases hlast : s.txOffset + 1 = s.txLen <;>
      simp [State.txState, advanceTx, lastByte, hlast, hready, hcomplete]
  exact { h with
    enables_exclusive := by rw [hstate]; split <;> simp
    lineDrive_iff := by rw [hstate]; split <;> simp [advanceTx, hline]
    sending_range := by
      rw [hstate]
      split
      · simp
      · exact fun _ => ⟨by simp only [advanceTx, emit_txOffset, emit_txLen]; omega, hlen⟩
    tx_written := fun _ => h.tx_written hsending }

/-- The end of a reply keeps the invariant: line and transmitter become idle together (R275). -/
theorem Inv.releaseLine {s : State} (h : Inv s) (hcomplete : s.txCompleteEn = true) : Inv (Machine.releaseLine s) := by
  have hstate : (Machine.releaseLine s).txState = .idle :=
    txState_eq_idle.2 ⟨h.txReadyEn_of_txCompleteEn hcomplete, rfl⟩
  have hline : (Machine.releaseLine s).lineDrive = false := rfl
  exact { h with
    enables_exclusive := by simp [hstate]
    lineDrive_iff := by simp [hstate, hline]
    sending_range := by simp [hstate]
    tx_written := by simp [hstate] }

/-- A tick keeps the divider below its bound (R290). -/
theorem Inv.tickOnce {s : State} (h : Inv s) : Inv (Machine.tickOnce s) :=
  { h with
    hbDiv_lt := by
      have hlt := h.hbDiv_lt
      simp only [Machine.tickOnce, heartbeatSlot, decide_eq_true_eq]
      split <;> omega }

/-- A handler keeps the invariant: it gives the bus address no value but 0 or an accepted one (R33, R244). -/
theorem HandlerEffect.inv {s u : State} (he : HandlerEffect s u) (h : Inv s) : Inv u := by
  have haddr : u.myAddress < s.cfg.masterAddr := by
    rcases he.address with hsame | hzero | hok
    · exact hsame ▸ h.myAddress_lt
    · obtain ⟨-, ⟨hmaster, -⟩, -⟩ := h.cfg_valid
      have hpos : 0 < s.cfg.masterAddr.toNat := hmaster ▸ Nat.two_pow_pos _
      rw [hzero, BitVec.lt_def]
      simpa using hpos
    · simp only [newAddressOk, Bool.and_eq_true, decide_eq_true_eq] at hok
      exact hok.2
  rw [he.frame]
  exact { h with myAddress_lt := haddr }

/-- The start of a reply keeps the invariant: the frame is written and lies inside `TX` (R216, R270). -/
theorem Inv.startReply {u : State} (h : Inv u) (hidle : u.txState = .idle) {p : List Byte}
    (hp : p.length ≤ u.cfg.maxPayload) :
    Inv { claimLine (u.cfg.addrLen + p.length + u.cfg.csumLen)
      (u.withBuffer .tx (u.tx.writeAll 0 (replyFrame u.cfg u.myAddress p))) with pePhase := .idle } := by
  obtain ⟨-, hcsum, hroom, -⟩ := h.cfg_valid.1
  obtain ⟨-, hcomplete⟩ := txState_eq_idle.1 hidle
  have hlen : u.cfg.addrLen + p.length + u.cfg.csumLen = (replyFrame u.cfg u.myAddress p).length := by simp [hcsum]
  have hfits : (replyFrame u.cfg u.myAddress p).length ≤ u.cfg.bufSize := by
    simp only [replyFrame_length, Config.maxPayload] at hp ⊢
    omega
  rw [hlen]
  exact { h with
    enables_exclusive := by simp [txState_eq_bothEnabled, hcomplete]
    lineDrive_iff := by simp [txState_eq_idle]
    sending_range := fun _ => ⟨by simp, hfits⟩
    latched_two := fun hne => absurd rfl hne
    dispatch_room := fun hphase => nomatch hphase
    rx_latched := fun hne => absurd rfl hne
    tx_wf := Memory.wf_writeAll _ h.tx_wf 0
    tx_inside := Memory.inside_writeAll _ h.tx_inside (by simpa using hfits)
    tx_written := fun _ => written_writeAll _ _ }

/-- The result handling keeps the invariant (R175, R178). -/
theorem Inv.finishDispatch {u t : State} {r : Result} (h : Inv u) (hf : u.fault = none)
    (hok : Machine.finishDispatch (u, r) = .ok t) : Inv t := by
  rcases finishDispatch_eq_ok hf hok with ⟨-, rfl⟩ | ⟨m, rfl, -⟩ | ⟨p, -, hp, hidle, rfl⟩
  · exact { h with
      latched_two := fun hne => absurd rfl hne
      dispatch_room := fun hphase => nomatch hphase
      rx_latched := fun hne => absurd rfl hne }
  · exact { h with }
  · exact h.startReply hidle hp

/-- Every instruction keeps the invariant. -/
theorem Inv.exec {i : Instr} {s t : State} (h : Inv s) (hn : Machine.exec i s = .next t) : Inv t := by
  rcases exec_cases hn with ⟨-, rfl⟩ | ⟨b, -, hrx⟩ | ⟨-, hend⟩ | ⟨-, -, rfl⟩ | ⟨-, hphase, rfl⟩ | ⟨-, hphase, hver⟩ |
    ⟨-, hready, hsend⟩ | ⟨-, hcomplete, rfl⟩ | ⟨-, rfl⟩ | ⟨-, hf, -, u, r, he, hfin, -⟩
  · exact resetDevice_inv h.cfg_valid
  · exact h.receiveByte hrx
  · exact h.endBurst hend
  · exact h.pollFrame
  · exact h.suspendReception hphase
  · exact h.verifyFrame hphase hver
  · exact h.sendByte hready hsend
  · exact h.releaseLine hcomplete
  · exact h.tickOnce
  · exact (he.inv h).finishDispatch (he.fault_eq.trans hf) hfin

/-- Settles O17: a step that answers a next state waits or performs one operation, and every operation keeps the
invariant. -/
theorem stepKeepsInv : Obligations.StepKeepsInv := by
  intro s t h hstep
  rcases step_cases s with ⟨-, hwait⟩ | ⟨e, -, -, hrefuse⟩ | ⟨i, rest, -, -, hrun⟩
  · cases hwait.symm.trans hstep
    exact h
  · cases hrefuse.symm.trans hstep
  · exact (h.withStimulus rest).exec (hrun.symm.trans hstep)

/-- Settles O16: CFG0 is legal. -/
theorem resetSatisfiesInv : Obligations.ResetSatisfiesInv :=
  ⟨inv_initial (by decide), rfl, rfl, rfl, rfl, rfl, rfl, rfl⟩

/-! ## Under the invariant no access fails (R48, R49, R76) -/

/-- The write offset is inside `RX`, so a byte can always be received (R50 (i)). -/
theorem Inv.receiveByte_total {s : State} (h : Inv s) (b : Byte) : ∃ t, Machine.receiveByte b s = .ok t := by
  cases he : s.rxEnable with
  | false => exact ⟨s, by simp [Machine.receiveByte, he]⟩
  | true => exact ⟨_, receiveByte_of_enabled he h.rxOffset_lt⟩

/-- The end of a burst reads the leading address only of a burst long enough to hold it (R155, R156). -/
theorem Inv.endBurst_total {s : State} (h : Inv s) : ∃ t, Machine.endBurst s = .ok t := by
  cases hend : Machine.endBurst s with
  | ok t => exact ⟨t, rfl⟩
  | error e =>
    obtain ⟨htwo, hread⟩ := endBurst_eq_error hend
    obtain ⟨haddr, -⟩ := h.cfg_valid.1
    have hwritten : Written ((flushDeferred s).buffer .rx) s.rxOffset := by
      simpa [flushDeferred_eq] using h.rx_written
    have hcfg : (flushDeferred s).cfg = s.cfg := by rw [flushDeferred_eq]
    obtain ⟨field, hok⟩ := hwritten.memRead (a := 0) (n := s.cfg.addrLen) (by omega)
      (by simpa [hcfg] using h.rxOffset_lt.le)
    cases hread.symm.trans hok

/-- The latched frame has been written, so it can be verified (R48, R173). -/
theorem Inv.verifyFrame_total {s : State} (h : Inv s) (hphase : s.pePhase = .verify) :
    ∃ t, Machine.verifyFrame s = .ok t := by
  have hwritten : Written (s.buffer .rx) s.peLen := h.rx_latched (by simp [hphase])
  obtain ⟨f, hread⟩ := hwritten.memRead (a := 0) (n := s.peLen) (by omega) h.peLen_lt.le
  exact ⟨_, by rw [Machine.verifyFrame, hread]⟩

/-- The byte to hand over lies in the reply frame, which has been written (R49, R274). -/
theorem Inv.sendByte_total {s : State} (h : Inv s) (hready : s.txReadyEn = true) :
    ∃ t, Machine.sendByte s = .ok t := by
  have hsending := h.sending_of_txReadyEn hready
  obtain ⟨hin, hlen⟩ := h.sending_range hsending
  obtain ⟨b, hb⟩ := Option.isSome_iff_exists.1 (h.tx_written hsending s.txOffset hin)
  have hread : readByte s .tx s.txOffset = .ok b := readByte_eq_ok.2 ⟨by omega, hb⟩
  exact ⟨_, by rw [Machine.sendByte, hread]⟩

/-- The verified frame has room for address and checksum, so address and payload can be read (R175 to R177). -/
theorem Inv.latchedFrame_total {s : State} (h : Inv s) (hphase : s.pePhase = .dispatch) :
    ∃ a p, latchedFrame s = .ok (a, p) := by
  have hwritten : Written (s.buffer .rx) s.peLen := h.rx_latched (by simp [hphase])
  have hroom := h.dispatch_room hphase
  obtain ⟨field, hfield⟩ := hwritten.memRead (a := 0) (n := s.cfg.addrLen) (by omega) h.peLen_lt.le
  obtain ⟨p, hp⟩ := hwritten.memRead (a := s.cfg.addrLen) (n := s.peLen - s.cfg.addrLen - s.cfg.csumLen)
    (by omega) h.peLen_lt.le
  exact ⟨addrOf field, p, by rw [latchedFrame, hfield, hp]⟩

/-- A dispatch always ends (R175, R272). -/
theorem Inv.dispatchFrame_total {s : State} (h : Inv s) (hphase : s.pePhase = .dispatch) :
    ∃ t, dispatchFrame s = .ok t := by
  obtain ⟨a, p, hlatched⟩ := h.latchedFrame_total hphase
  obtain ⟨t, ht⟩ := finishDispatch_total ((processFrame_effect a p s).inv h).cfg_valid (processFrame a p s).2
  exact ⟨t, by simpa only [dispatchFrame, hlatched] using ht⟩

/-- The dispatch of a frame command always ends (R178, R272). -/
theorem Inv.finishDispatch_handlerOf_total {s : State} (h : Inv s) (i : Instr) :
    ∃ t, Machine.finishDispatch (handlerOf i s) = .ok t :=
  finishDispatch_total ((handlerOf_effect i s).inv h).cfg_valid (handlerOf i s).2

/-- An operation whose effect ends wherever it is enabled stops only for being marked or not enabled. -/
theorem perform_eq_fault_of_total {en : Bool} {s : State} {f : State → Except Fault State} {e : Fault}
    (htotal : en = true → ∃ t, f s = .ok t) (h : perform en s f = .fault e) : e = .notEnabled ∨ ∃ m, e = .marked m := by
  rcases perform_eq_fault.1 h with ⟨m, -, rfl⟩ | ⟨-, -, rfl⟩ | ⟨-, hen, herr⟩
  · exact .inr ⟨m, rfl⟩
  · exact .inl rfl
  · obtain ⟨t, ht⟩ := htotal hen
    cases herr.symm.trans ht

/-- No instruction meets an access fault in a state with the invariant. -/
theorem Inv.exec_eq_fault {i : Instr} {s : State} {f : Fault} (h : Inv s) (hfault : Machine.exec i s = .fault f) :
    f = .notEnabled ∨ ∃ m, f = .marked m := by
  cases i with
  | reset =>
    rw [Machine.exec, execReset, if_pos h.cfg_valid] at hfault
    cases hfault
  | rxByte b => exact perform_eq_fault_of_total (fun _ => h.receiveByte_total b) hfault
  | rxTimeout => exact perform_eq_fault_of_total (fun _ => h.endBurst_total) hfault
  | pePoll => exact perform_eq_fault_of_total (f := fun s => .ok (Machine.pollFrame s)) (fun _ => ⟨_, rfl⟩) hfault
  | peSuspendRx =>
    exact perform_eq_fault_of_total (f := fun s => .ok (Machine.suspendReception s)) (fun _ => ⟨_, rfl⟩) hfault
  | txComplete =>
    exact perform_eq_fault_of_total (f := fun s => .ok (Machine.releaseLine s)) (fun _ => ⟨_, rfl⟩) hfault
  | tick => exact perform_eq_fault_of_total (f := fun s => .ok (Machine.tickOnce s)) (fun _ => ⟨_, rfl⟩) hfault
  | peVerify => exact perform_eq_fault_of_total (fun hen => h.verifyFrame_total (of_decide_eq_true hen)) hfault
  | peDispatch => exact perform_eq_fault_of_total (fun hen => h.dispatchFrame_total (of_decide_eq_true hen)) hfault
  | txReady => exact perform_eq_fault_of_total (fun hen => h.sendByte_total hen) hfault
  | _ =>
    rw [exec_frameCommand (c := s.cfg) (by simp [encode])] at hfault
    exact perform_eq_fault_of_total (fun _ => h.finishDispatch_handlerOf_total _) hfault

/-- Settles O18: a step that stops with a fault stops in the operation it reads. -/
theorem invExcludesAccessFaults : Obligations.InvExcludesAccessFaults := by
  intro s f h hstep
  rcases step_cases s with ⟨-, hwait⟩ | ⟨e, -, -, hrefuse⟩ | ⟨i, rest, -, -, hrun⟩
  · cases hwait.symm.trans hstep
  · cases hrefuse.symm.trans hstep
  · exact (h.withStimulus rest).exec_eq_fault (hrun.symm.trans hstep)

/-! ## The discipline along a step (R361, R366) -/

/-- An idle engine meets the discipline whatever the transmitter does. -/
theorem disciplined_of_idle {t : State} (hphase : t.pePhase = .idle) : Disciplined t :=
  ⟨fun hbusy => absurd hphase hbusy, fun hwork => by simp [hphase] at hwork⟩

/-- A step that leaves phase, transmitter and receive enable alone keeps the discipline and half-duplex exclusivity. -/
theorem discipline_of_same {s t : State} (hd : Disciplined s) (hphase : t.pePhase = s.pePhase)
    (hstate : t.txState = s.txState) (henable : t.rxEnable = s.rxEnable) :
    Disciplined t ∧ (HalfDuplex s → HalfDuplex t) := by
  refine ⟨⟨?_, ?_⟩, ?_⟩
  · rw [hphase, hstate]
    exact hd.engine_alone
  · rw [hphase, henable]
    exact hd.suspended
  · unfold HalfDuplex
    rw [hstate, henable]
    exact id

/-- The discipline leaves the engine idle while a reply is leaving (R361). -/
theorem Disciplined.idle_of_sending {s : State} (hd : Disciplined s) (hstate : s.txState ≠ .idle) : s.pePhase = .idle :=
  Classical.not_not.1 fun hbusy => hstate (hd.engine_alone hbusy)

/-- The result handling keeps the discipline and half-duplex exclusivity: no reply is leaving when it begins (R175). -/
theorem finishDispatch_discipline {u t : State} {r : Result} (hd : Disciplined u) (hphase : u.pePhase = .dispatch)
    (hf : u.fault = none) (hok : finishDispatch (u, r) = .ok t) : Disciplined t ∧ (HalfDuplex u → HalfDuplex t) := by
  have hidle : u.txState = .idle := hd.engine_alone (by simp [hphase])
  rcases finishDispatch_eq_ok hf hok with ⟨-, rfl⟩ | ⟨m, rfl, -⟩ | ⟨p, -, -, -, rfl⟩
  · exact ⟨disciplined_of_idle rfl, fun _ hsending => absurd hidle hsending⟩
  · exact discipline_of_same hd rfl rfl rfl
  · exact ⟨disciplined_of_idle rfl, fun _ _ => rfl⟩

/-- Every instruction but a poll that takes a frame during a reply keeps the discipline and half-duplex exclusivity. -/
theorem exec_discipline {i : Instr} {s t : State} (h : Inv s) (hd : Disciplined s)
    (hpoll : i = .pePoll → s.pendingLen ≠ 0 → s.txState = .idle) (hn : exec i s = .next t) :
    Disciplined t ∧ (HalfDuplex s → HalfDuplex t) := by
  rcases exec_cases hn with ⟨-, rfl⟩ | ⟨b, -, hrx⟩ | ⟨-, hend⟩ | ⟨hi, -, rfl⟩ | ⟨-, hphase, rfl⟩ | ⟨-, hphase, hver⟩ |
    ⟨-, hready, hsend⟩ | ⟨-, hcomplete, rfl⟩ | ⟨-, rfl⟩ | ⟨-, hf, hphase, u, r, he, hfin, -⟩
  · exact ⟨disciplined_of_idle rfl, fun _ hsending => absurd rfl hsending⟩
  · rcases receiveByte_eq_ok hrx with ⟨-, rfl⟩ | ⟨-, -, rfl⟩ <;> exact discipline_of_same hd rfl rfl rfl
  · obtain ⟨_, -, rfl⟩ := endBurst_eq_ok hend
    exact discipline_of_same hd rfl rfl rfl
  · unfold pollFrame
    split
    · exact ⟨hd, id⟩
    · rename_i hpending
      exact ⟨⟨fun _ => hpoll hi hpending, fun hwork => by simp at hwork⟩, id⟩
  · have hidle : s.txState = .idle := hd.engine_alone (by simp [hphase])
    exact ⟨⟨fun _ => hidle, fun _ => rfl⟩, fun _ _ => rfl⟩
  · have hidle : s.txState = .idle := hd.engine_alone (by simp [hphase])
    obtain ⟨f, -, ⟨-, rfl⟩ | ⟨-, rfl⟩⟩ := verifyFrame_eq_ok hver
    · exact ⟨⟨fun _ => hidle, fun _ => hd.suspended (.inl hphase)⟩, id⟩
    · exact ⟨disciplined_of_idle rfl, fun _ hsending => absurd hidle hsending⟩
  · have hsending : s.txState ≠ .idle := by simp [h.sending_of_txReadyEn hready]
    obtain ⟨b, -, -, rfl⟩ := sendByte_eq_ok hsend
    exact ⟨disciplined_of_idle (hd.idle_of_sending hsending), fun hhalf _ => hhalf hsending⟩
  · have hsending : s.txState ≠ .idle := by simp [txState_eq_idle, hcomplete]
    have hidle : (releaseLine s).txState = .idle := txState_eq_idle.2 ⟨h.txReadyEn_of_txCompleteEn hcomplete, rfl⟩
    exact ⟨disciplined_of_idle (hd.idle_of_sending hsending), fun _ hleaving => absurd hidle hleaving⟩
  · exact discipline_of_same hd rfl rfl rfl
  · obtain ⟨hdu, hhalf⟩ := discipline_of_same hd he.pePhase_eq he.txState_eq he.rxEnable_eq
    obtain ⟨hdt, hkeep⟩ := finishDispatch_discipline hdu (he.pePhase_eq.trans hphase) (he.fault_eq.trans hf) hfin
    exact ⟨hdt, fun hs => hkeep (hhalf hs)⟩

/-- Settles O19: the operation a step reads keeps both, and a poll among them takes no frame during a reply. -/
theorem stepKeepsDiscipline : Obligations.StepKeepsDiscipline := by
  intro s t h hd hpoll hstep
  rcases step_cases s with ⟨-, hwait⟩ | ⟨e, -, -, hrefuse⟩ | ⟨i, rest, -, hdecode, hrun⟩
  · cases hwait.symm.trans hstep
    exact ⟨hd, id⟩
  · cases hrefuse.symm.trans hstep
  · exact exec_discipline (s := { s with stimulus := rest }) (h.withStimulus rest) { hd with }
      (fun hi => hpoll rest (hi ▸ hdecode)) (hrun.symm.trans hstep)

/-! ## What no instruction, and what no operation but the dispatch, writes (R33, R34, R44) -/

/-- The result handling leaves the configuration, the stimulus and the bus address alone (R175, R178). -/
theorem finishDispatch_frame {u t : State} {r : Result} (hf : u.fault = none) (hok : finishDispatch (u, r) = .ok t) :
    t.cfg = u.cfg ∧ t.stimulus = u.stimulus ∧ t.myAddress = u.myAddress := by
  rcases finishDispatch_eq_ok hf hok with ⟨-, rfl⟩ | ⟨m, rfl, -⟩ | ⟨p, -, -, -, rfl⟩ <;> exact ⟨rfl, rfl, rfl⟩

/-- Every instruction is `RESET`, or leaves the configuration, the stimulus and the bus address alone, or dispatches a
frame and leaves the configuration and the stimulus alone. -/
theorem exec_frame {i : Instr} {s t : State} (hn : exec i s = .next t) :
    (i = .reset ∧ t = resetDevice s) ∨ (t.cfg = s.cfg ∧ t.stimulus = s.stimulus ∧ t.myAddress = s.myAddress) ∨
      (((∀ ds, encode s.cfg i ≠ .event ds) ∨ i = .peDispatch) ∧ t.cfg = s.cfg ∧ t.stimulus = s.stimulus) := by
  rcases exec_cases hn with hreset | ⟨b, -, hrx⟩ | ⟨-, hend⟩ | ⟨-, -, rfl⟩ | ⟨-, -, rfl⟩ | ⟨-, -, hver⟩ |
    ⟨-, -, hsend⟩ | ⟨-, -, rfl⟩ | ⟨-, rfl⟩ | ⟨hi, hf, -, u, r, he, hfin, -⟩
  · exact .inl hreset
  · rcases receiveByte_eq_ok hrx with ⟨-, rfl⟩ | ⟨-, -, rfl⟩ <;> exact .inr (.inl ⟨rfl, rfl, rfl⟩)
  · obtain ⟨_, -, rfl⟩ := endBurst_eq_ok hend
    exact .inr (.inl ⟨rfl, rfl, rfl⟩)
  · unfold pollFrame
    split <;> exact .inr (.inl ⟨rfl, rfl, rfl⟩)
  · exact .inr (.inl ⟨rfl, rfl, rfl⟩)
  · obtain ⟨f, -, ⟨-, rfl⟩ | ⟨-, rfl⟩⟩ := verifyFrame_eq_ok hver <;> exact .inr (.inl ⟨rfl, rfl, rfl⟩)
  · obtain ⟨b, -, -, rfl⟩ := sendByte_eq_ok hsend
    exact .inr (.inl ⟨rfl, rfl, rfl⟩)
  · exact .inr (.inl ⟨rfl, rfl, rfl⟩)
  · exact .inr (.inl ⟨rfl, rfl, rfl⟩)
  · obtain ⟨hcfg, hstim, -⟩ := finishDispatch_frame (he.fault_eq.trans hf) hfin
    exact .inr (.inr ⟨hi, hcfg.trans he.cfg_eq, hstim.trans he.stimulus_eq⟩)

/-- Settles O26: `RESET` keeps what is not the device's, and every other instruction leaves it alone. -/
theorem configurationFixed : Obligations.ConfigurationFixed := by
  intro i s t hn
  have hfixed : t.cfg = s.cfg ∧ t.stimulus = s.stimulus := by
    rcases exec_frame hn with ⟨-, rfl⟩ | ⟨hcfg, hstim, -⟩ | ⟨-, hcfg, hstim⟩
    · exact ⟨rfl, rfl⟩
    · exact ⟨hcfg, hstim⟩
    · exact ⟨hcfg, hstim⟩
  obtain ⟨hcfg, hstim⟩ := hfixed
  exact ⟨hcfg, congrArg Config.uuid hcfg, hstim⟩

/-- A dispatch that changes the bus address is that of one of its three writers, and gives the writer's value. -/
theorem dispatch_myAddress {command : Instr} {s t : State} (hf : s.fault = none)
    (hok : finishDispatch (handlerOf command s) = .ok t) (hne : t.myAddress ≠ s.myAddress) :
    (command = .bcUuidResetAddress ∧ t.myAddress = 0) ∨ (command = .bcResetAllAddresses ∧ t.myAddress = 0) ∨
      ∃ a, command = .bcUuidSetAddress a ∧ t.myAddress = a := by
  obtain ⟨-, -, haddr⟩ := finishDispatch_frame ((handlerOf_effect command s).fault_eq.trans hf) hok
  rw [haddr] at hne ⊢
  exact (handlerOf_myAddress command s).resolve_left hne

/-- Settles O21: `PE_DISPATCH` runs the handler of the command its frame decodes to. -/
theorem addressWriters : Obligations.AddressWriters := by
  intro i s t hn hne
  rcases exec_frame hn with ⟨rfl, rfl⟩ | ⟨-, -, hsame⟩ | ⟨hcommand | rfl, -⟩
  · exact .inl ⟨rfl, rfl⟩
  · exact absurd hsame hne
  · rw [exec_frameCommand hcommand] at hn
    obtain ⟨hf, -, hok⟩ := perform_eq_next.1 hn
    exact .inr ⟨i, .inl rfl, dispatch_myAddress hf hok hne⟩
  · obtain ⟨hf, -, hdispatch⟩ := perform_eq_next.1 hn
    obtain ⟨a, p, hlatched, hok⟩ := dispatchFrame_eq_ok hdispatch
    rw [processFrame_eq_handlerOf] at hok
    exact .inr ⟨_, .inr ⟨rfl, a, p, hlatched, rfl⟩, dispatch_myAddress hf hok hne⟩

/-- Settles O23: the five effects one by one; only the acceptance of a frame touches the suppression, to set it. -/
theorem preemptiveFrame : Obligations.PreemptiveFrame := by
  rintro i s t (⟨b, rfl⟩ | rfl | rfl | rfl | rfl) hn
  · rcases receiveByte_eq_ok (perform_eq_next.1 hn).2.2 with ⟨-, rfl⟩ | ⟨-, -, rfl⟩ <;>
      exact ⟨rfl, rfl, rfl, rfl, rfl, rfl, rfl, rfl, rfl, rfl, id⟩
  · obtain ⟨accepted, -, rfl⟩ := endBurst_eq_ok (perform_eq_next.1 hn).2.2
    exact ⟨rfl, rfl, rfl, rfl, rfl, rfl, rfl, rfl, rfl, rfl, fun hs => by simp [hs]⟩
  · obtain ⟨b, -, -, rfl⟩ := sendByte_eq_ok (perform_eq_next.1 hn).2.2
    exact ⟨rfl, rfl, rfl, rfl, rfl, rfl, rfl, rfl, rfl, rfl, id⟩
  · obtain ⟨-, -, hok⟩ := (perform_eq_next (f := fun s => .ok (releaseLine s))).1 hn
    cases hok
    exact ⟨rfl, rfl, rfl, rfl, rfl, rfl, rfl, rfl, rfl, rfl, id⟩
  · obtain ⟨-, -, hok⟩ := (perform_eq_next (f := fun s => .ok (tickOnce s))).1 hn
    cases hok
    exact ⟨rfl, rfl, rfl, rfl, rfl, rfl, rfl, rfl, rfl, rfl, id⟩

/-! ## Reset and the fault mark (R51, R272, R273, R350) -/

/-- Settles O14: a legal configuration is not refused. -/
theorem resetEffect : Obligations.ResetEffect := by
  intro s hc
  exact ⟨resetDevice s, if_pos hc, by simp [resetDevice, State.initial]⟩

/-- Settles O51: everything but `RESET` is performed, and nothing is performed while the mark is set. -/
theorem markedDeviceOnlyResets : Obligations.MarkedDeviceOnlyResets := by
  intro i s m hmark hi
  obtain ⟨f, hexec⟩ := exec_eq_perform hi
  rw [hexec]
  exact perform_eq_fault.2 (.inl ⟨m, hmark, rfl⟩)

/-- A command that answers too much sets the mark `ReplyTooLong` on the state its handler left (R175, R272). -/
theorem exec_replyTooLong {c : Config} {i : Instr} {s u : State} {r : List Byte} (hs : Dispatching s)
    (hi : ∀ ds, encode c i ≠ .event ds) (hu : handlerOf i s = (u, .reply r)) (hr : u.cfg.maxPayload < r.length) :
    exec i s = .next { u with fault := some .replyTooLong } := by
  rw [exec_frameCommand_of_dispatching hs hi, hu]
  simp [finishDispatch, txStart, hr, endDispatch, toOutcome]

/-- A command that answers while an earlier reply is leaving sets the mark `TxOverlap` on the state its handler left
(R175, R273). -/
theorem exec_txOverlap {c : Config} {i : Instr} {s u : State} {r : List Byte} (hs : Dispatching s)
    (hi : ∀ ds, encode c i ≠ .event ds) (hu : handlerOf i s = (u, .reply r)) (hr : r.length ≤ u.cfg.maxPayload)
    (hsending : u.txState ≠ .idle) : exec i s = .next { u with fault := some .txOverlap } := by
  rw [exec_frameCommand_of_dispatching hs hi, hu]
  simp [finishDispatch, txStart, Nat.not_lt.2 hr, hsending, endDispatch, toOutcome]

/-- A registered application is asked once, with the whole payload, and its answer is the result (R215). -/
theorem handleAppRequest_registered {s : State} (hreg : s.cfg.appRequestRegistered = true) (p : List Byte) :
    handleAppRequest p s = (afterApplication s p, applicationAnswer s p) := by
  unfold handleAppRequest askApplication afterApplication applicationAnswer
  simp only [hreg, if_true, emit_appAnswers]
  cases s.appAnswers <;> simp [emit]

/-- Settles O44: the application's answer is the result. -/
theorem longReplyMarks : Obligations.LongReplyMarks := by
  intro s p r hs hreg hanswer hr
  have hu : handlerOf (.appRequest p) s = (afterApplication s p, .reply r) := by
    rw [← hanswer]
    exact handleAppRequest_registered hreg p
  exact exec_replyTooLong (c := s.cfg) hs (by simp [encode]) hu hr

/-- Every legal configuration has room for a reply of 16 bytes, the longest one of fixed length (R216). -/
theorem sixteen_le_maxPayload {c : Config} (hc : c.Valid) : 16 ≤ c.maxPayload := by
  obtain ⟨-, -, hroom, -⟩ := hc.1
  unfold Config.maxPayload
  omega

/-- The commands that answer without changing the state answer what fits in a legal configuration (R216). -/
theorem handlerOf_answers {s : State} (hc : s.cfg.Valid) : ∀ i ∈ ([.ping, .deviceInfo, .getName, .getUptime, .getVersion,
      .getCountCorrect, .getCountOverflow, .getCountLost, .getCountMismatch, .getCountAll, .getUuid, .getExtendedInfo,
      .bcUuidPing, .bcUuidGetAddress] : List Instr),
    (∀ ds, encode s.cfg i ≠ .event ds) ∧ ∃ r, handlerOf i s = (s, .reply r) ∧ r.length ≤ s.cfg.maxPayload := by
  have hmax := sixteen_le_maxPayload hc
  obtain ⟨haddr, -, -, -, -, -, hext⟩ := hc.1
  unfold Config.extLen at hext
  simp only [List.forall_mem_cons, List.not_mem_nil, false_imp_iff, implies_true, and_true]
  refine ⟨?_, ?_, ?_, ?_, ?_, ?_, ?_, ?_, ?_, ?_, ?_, ?_, ?_, ?_⟩ <;>
    exact ⟨by simp [encode], _, rfl, by grind [le_length, uuidField_length, addrField_length]⟩

/-- Settles O45: the commands that answer without changing the state, then those that change it first. -/
theorem overlapMarks : Obligations.OverlapMarks := by
  intro s hs hc hsending
  have hmax := sixteen_le_maxPayload hc
  refine ⟨fun i hi => ?_, ?_, fun haddr => ?_, ?_, fun a => ?_, fun p r hreg hanswer hr => ?_⟩
  · obtain ⟨hcommand, r, hu, hr⟩ := handlerOf_answers hc i hi
    exact exec_txOverlap hs hcommand hu hr hsending
  · exact exec_txOverlap (c := s.cfg) (i := .resetCounts) hs (by simp [encode]) rfl (Nat.zero_le _) hsending
  · have hu : handlerOf .bcUuidRequest s = (s, .reply (uuidField s.cfg)) := by
      simp [handlerOf, handleBcUuidRequest, haddr]
    exact exec_txOverlap (c := s.cfg) hs (by simp [encode]) hu (by simp; omega) hsending
  · exact exec_txOverlap (c := s.cfg) (i := .bcUuidResetAddress) hs (by simp [encode]) rfl (Nat.zero_le _) hsending
  · have hone : 1 ≤ s.cfg.maxPayload := by omega
    by_cases hok : 0 < a.toNat ∧ a.toNat < s.cfg.masterAddr.toNat
    · have hu : handlerOf (.bcUuidSetAddress a) s = ({ s with myAddress := a }, .reply [0x01]) := by
        simp [handlerOf, handleBcUuidSetAddress, newAddressOk, BitVec.lt_def, hok]
      rw [if_pos hok]
      exact exec_txOverlap (c := s.cfg) hs (by simp [encode]) hu hone hsending
    · have hu : handlerOf (.bcUuidSetAddress a) s = (s, .reply [0x00]) := by
        simp [handlerOf, handleBcUuidSetAddress, newAddressOk, BitVec.lt_def, hok]
      rw [if_neg hok]
      exact exec_txOverlap (c := s.cfg) hs (by simp [encode]) hu hone hsending
  · have hu : handlerOf (.appRequest p) s = (afterApplication s p, .reply r) := by
      rw [← hanswer]
      exact handleAppRequest_registered hreg p
    exact exec_txOverlap (c := s.cfg) hs (by simp [encode]) hu hr hsending

end Sys2Proof.Machine

/-! SUPPORT. The statement about the two buffers (20_memory.md): which operations write `RX` and `TX`, and which bytes of
them. -/

namespace Sys2Proof.Machine

/-! ## Who writes the buffers (R71, R78, R270) -/

/-- Taking over a pending frame leaves `RX` alone (R171). -/
@[simp] theorem pollFrame_rx (s : State) : (pollFrame s).rx = s.rx := by
  unfold pollFrame
  split <;> rfl

/-- Taking over a pending frame leaves `TX` alone (R171). -/
@[simp] theorem pollFrame_tx (s : State) : (pollFrame s).tx = s.tx := by
  unfold pollFrame
  split <;> rfl

/-- The end of a dispatch leaves `RX` alone (R175). -/
@[simp] theorem endDispatch_rx (s : State) : (endDispatch s).rx = s.rx := by
  unfold endDispatch
  split <;> rfl

/-- The end of a dispatch leaves `TX` alone (R175). -/
@[simp] theorem endDispatch_tx (s : State) : (endDispatch s).tx = s.tx := by
  unfold endDispatch
  split <;> rfl

/-- A handler leaves `RX` alone. -/
theorem HandlerEffect.rx_eq {s u : State} (h : HandlerEffect s u) : u.rx = s.rx := by
  rw [h.frame]

/-- A handler leaves `TX` alone. -/
theorem HandlerEffect.tx_eq {s u : State} (h : HandlerEffect s u) : u.tx = s.tx := by
  rw [h.frame]

/-- `TX_START` leaves `RX` alone, and writes `TX` only where it writes the whole reply frame from index 0 (R270). -/
theorem txStart_buffers {r : List Byte} {u v : State} (h : txStart r u = .ok v) :
    v.rx = u.rx ∧ (v.tx = u.tx ∨ v.tx = u.tx.writeAll 0 (replyFrame u.cfg u.myAddress r)) := by
  rcases txStart_eq_ok h with ⟨-, rfl⟩ | ⟨-, -, rfl⟩ | ⟨-, -, rfl⟩
  · exact ⟨rfl, .inl rfl⟩
  · exact ⟨rfl, .inl rfl⟩
  · exact ⟨rfl, .inr rfl⟩

/-- A reply's result handling is `TX_START` and then the end of the dispatch (R175). -/
theorem finishDispatch_reply_eq_ok {r : List Byte} {u t : State} (h : finishDispatch (u, .reply r) = .ok t) :
    ∃ v, txStart r u = .ok v ∧ t = endDispatch v := by
  simp only [finishDispatch] at h
  split at h
  · cases h
  · rename_i v hv
    cases h
    exact ⟨v, hv, rfl⟩

/-- The result handling leaves `RX` alone, and writes `TX` only where it starts a reply (R175, R178, R270). -/
theorem finishDispatch_buffers {u t : State} {result : Result} (h : finishDispatch (u, result) = .ok t) :
    t.rx = u.rx ∧ (t.tx = u.tx ∨ ∃ v r, txStart r u = .ok v ∧ t = endDispatch v ∧
      t.tx = u.tx.writeAll 0 (replyFrame u.cfg u.myAddress r)) := by
  cases result with
  | noAnswer =>
    cases h
    exact ⟨rfl, .inl rfl⟩
  | reply r =>
    obtain ⟨v, hstart, rfl⟩ := finishDispatch_reply_eq_ok h
    obtain ⟨hrx, htx⟩ := txStart_buffers hstart
    rw [endDispatch_rx, endDispatch_tx]
    exact ⟨hrx, htx.imp_right fun hwrite => ⟨v, r, hstart, rfl, hwrite⟩⟩

/-- Whether an instruction is a frame command does not depend on the configuration (R107, R130). -/
theorem dispatches_of_frameCommand {c : Config} {i : Instr} (hi : ∀ ds, encode c i ≠ .event ds) : Dispatches i := by
  cases i with
  | reset | rxByte | rxTimeout | pePoll | peSuspendRx | peVerify | peDispatch | txReady | txComplete | tick =>
    exact absurd rfl (hi _)
  | _ => exact .inr fun _ _ h => nomatch h

/-- Everything an operation other than `RESET` can do to the buffers: leave both alone, store a received byte at the write
offset, or dispatch a frame, which writes `TX` only where it starts a reply. -/
theorem exec_buffers {i : Instr} {s t : State} (hn : exec i s = .next t) (hi : i ≠ .reset) :
    (t.rx = s.rx ∧ t.tx = s.tx) ∨
    (∃ b, i = .rxByte b ∧ t.rx = s.rx.write s.rxOffset b ∧ t.tx = s.tx) ∨
    (Dispatches i ∧ t.rx = s.rx ∧ ∃ u v r, u.tx = s.tx ∧ txStart r u = .ok v ∧ t = endDispatch v ∧
      t.tx = u.tx.writeAll 0 (replyFrame u.cfg u.myAddress r)) := by
  rcases exec_cases hn with ⟨hreset, -⟩ | ⟨b, hb, hrx⟩ | ⟨-, hend⟩ | ⟨-, -, rfl⟩ | ⟨-, -, rfl⟩ | ⟨-, -, hver⟩ |
    ⟨-, -, hsend⟩ | ⟨-, -, rfl⟩ | ⟨-, rfl⟩ | ⟨hcommand, -, -, u, result, he, hfin, -⟩
  · exact absurd hreset hi
  · rcases receiveByte_eq_ok hrx with ⟨-, rfl⟩ | ⟨-, -, rfl⟩
    · exact .inl ⟨rfl, rfl⟩
    · exact .inr (.inl ⟨b, hb, rfl, rfl⟩)
  · obtain ⟨_, -, rfl⟩ := endBurst_eq_ok hend
    exact .inl ⟨rfl, rfl⟩
  · exact .inl ⟨pollFrame_rx s, pollFrame_tx s⟩
  · exact .inl ⟨rfl, rfl⟩
  · obtain ⟨_, -, ⟨-, rfl⟩ | ⟨-, rfl⟩⟩ := verifyFrame_eq_ok hver <;> exact .inl ⟨rfl, rfl⟩
  · obtain ⟨_, -, -, rfl⟩ := sendByte_eq_ok hsend
    exact .inl ⟨rfl, rfl⟩
  · exact .inl ⟨rfl, rfl⟩
  · exact .inl ⟨rfl, rfl⟩
  · have hdispatches : Dispatches i := hcommand.elim dispatches_of_frameCommand .inl
    obtain ⟨hrx, hsame | ⟨v, r, hstart, hend, hwrite⟩⟩ := finishDispatch_buffers hfin
    · exact .inl ⟨hrx.trans he.rx_eq, hsame.trans he.tx_eq⟩
    · exact .inr (.inr ⟨hdispatches, hrx.trans he.rx_eq, u, v, r, he.tx_eq, hstart, hend, hwrite⟩)

/-- Settles O22, by the three things an operation can do to the buffers and the read laws of the byte write and of the
block write. -/
theorem bufferWriters : Obligations.BufferWriters := by
  intro i s t hn hi
  rcases exec_buffers hn hi with ⟨hrx, htx⟩ | ⟨b, rfl, hrx, htx⟩ | ⟨hdispatches, hrx, u, v, r, hu, hstart, hend, htx⟩
  · exact ⟨fun _ => hrx, fun j _ => by rw [hrx], fun _ => htx, fun hne => absurd htx hne⟩
  · exact ⟨fun hother => absurd rfl (hother b), fun j hj => by rw [hrx, Memory.read_write_ne s.rx b hj],
      fun _ => htx, fun hne => absurd htx hne⟩
  · refine ⟨fun _ => hrx, fun j _ => by rw [hrx], fun hnot => absurd hdispatches hnot,
      fun _ => ⟨u, v, r, hu, hstart, hend, fun j => ?_⟩⟩
    rw [htx, Memory.read_writeAll, hu]
    simp

end Sys2Proof.Machine

/-! SUPPORT. The statements about the encoding (30_encoding.md): the pattern tables read row by row, the round trip between
words and instructions, the event codes, and how a frame reaches the dispatcher that reads it. -/

namespace Sys2Proof

/-! ## What a legal configuration grants (R6, R8, R9) -/

theorem Config.Valid.addrLen_cases {c : Config} (hc : c.Valid) : c.addrLen = 1 ∨ c.addrLen = 2 := hc.1.1

theorem Config.Valid.csumLen_eq {c : Config} (hc : c.Valid) : c.csumLen = 1 := hc.1.2.1

theorem Config.Valid.allDevices_ne_protocolId {c : Config} (hc : c.Valid) : c.allDevices ≠ c.protocolId := by
  obtain ⟨-, -, -, hne, -⟩ := hc
  exact hne.symm

/-- The wire carries the instruction, whose operands match its row (R108 to R111, R130). -/
def Carries (c : Config) (w : Wire) (i : Instr) : Prop := encode c i = w ∧ operandsOk c i = true

/-! ## The unicast pattern table by the shape of the payload (R108, R112) -/

/-- The two-byte rows of the unicast table, selected by the code that follows 0x00 (R108). -/
def baseCommand (c : Config) (code : Byte) : Instr :=
  if code = c.cmdName then .getName
  else if code = c.cmdUptime then .getUptime
  else if code = c.cmdVersion then .getVersion
  else if code = c.cmdCountCorrect then .getCountCorrect
  else if code = c.cmdCountOverflow then .getCountOverflow
  else if code = c.cmdCountLost then .getCountLost
  else if code = c.cmdCountMismatch then .getCountMismatch
  else if code = c.cmdCountAll then .getCountAll
  else if code = c.cmdCountReset then .resetCounts
  else if code = c.cmdUuid then .getUuid
  else if code = c.cmdExtendedInfo then .getExtendedInfo
  else .baseReserved2 code

theorem decodeRequest_base (c : Config) (code : Byte) : decodeRequest c [0x00, code] = baseCommand c code := by
  simp [decodeRequest, baseCommand]

theorem decodeRequest_baseLong (c : Config) (x y : Byte) (rest : List Byte) :
    decodeRequest c (0x00 :: x :: y :: rest) = .baseReservedN (x :: y :: rest) := by
  simp [decodeRequest]

theorem decodeRequest_app (c : Config) {b : Byte} (hb : b ≠ 0x00) (rest : List Byte) :
    decodeRequest c (b :: rest) = .appRequest (b :: rest) := by
  simp [decodeRequest, show b ≠ 0#8 from hb]

/-- Each two-byte row carries the code it was selected by, and a code of no other row is none of the eleven. -/
theorem carries_baseCommand (c : Config) (code : Byte) : Carries c (.unicast [0x00, code]) (baseCommand c code) := by
  unfold baseCommand
  repeat' split
  case isFalse => simp_all [Carries, encode, operandsOk, Config.baseCodes]
  all_goals
    subst_vars
    exact ⟨rfl, rfl⟩

/-- A code that is none of the eleven selects the reserved row (R213). -/
theorem baseCommand_of_notMem {c : Config} {code : Byte} (h : code ∉ c.baseCodes) :
    baseCommand c code = .baseReserved2 code := by
  simp only [Config.baseCodes, List.mem_cons, List.not_mem_nil, or_false, not_or] at h
  simp [baseCommand, h]

/-- Under pairwise distinct codes each of the eleven selects its own row (R9). -/
theorem baseCommand_codes {c : Config} (h : c.baseCodes.Nodup) :
    c.baseCodes.map (baseCommand c) = [.getName, .getUptime, .getVersion, .getCountCorrect, .getCountOverflow,
      .getCountLost, .getCountMismatch, .getCountAll, .resetCounts, .getUuid, .getExtendedInfo] := by
  simp only [Config.baseCodes, List.nodup_cons, List.mem_cons, List.not_mem_nil, or_false, not_or] at h
  simp [Config.baseCodes, baseCommand, h, eq_comm]

/-- Every payload carries the unicast request it decodes to. -/
theorem carries_decodeRequest (c : Config) (p : List Byte) : Carries c (.unicast p) (decodeRequest c p) := by
  rcases p with _ | ⟨b, rest⟩
  · exact ⟨rfl, rfl⟩
  · by_cases hb : b = 0x00
    · subst hb
      match rest with
      | [] => exact ⟨rfl, rfl⟩
      | [code] =>
        rw [decodeRequest_base]
        exact carries_baseCommand c code
      | x :: y :: rest =>
        rw [decodeRequest_baseLong]
        exact ⟨rfl, by simp [operandsOk]⟩
    · rw [decodeRequest_app c hb]
      exact ⟨rfl, by simpa [operandsOk] using hb⟩

/-! ## The broadcast pattern tables by the shape of the payload (R109, R110, R112) -/

/-- The rows of `[ALL_DEVICES, SUB_UUID] ++ rest`, selected by `rest` (R110). -/
def uuidCommand (c : Config) (rest : List Byte) : Instr :=
  if rest = [] then .bcUuidRequest
  else if rest = uuidField c then .bcUuidPing
  else if rest = uuidField c ++ [c.keyGetAddress] then .bcUuidGetAddress
  else if rest = uuidField c ++ [c.keyResetAddress] then .bcUuidResetAddress
  else if rest.length = 5 + c.addrLen ∧ rest.take 5 = uuidField c ++ [c.keySetAddress] then
    .bcUuidSetAddress (addrOf (rest.drop 5))
  else .bcUuidReserved rest

/-- The rows of `[ALL_DEVICES, sub] ++ ops` for a sub-command other than `SUB_UUID` (R109). -/
def allDevicesCommand (c : Config) (sub : Byte) : List Byte → Instr
  | [] =>
    if sub = c.subEnableNeighbours then .bcEnableNeighbours
    else if sub = c.subDisableNeighbours then .bcDisableNeighbours
    else if sub = c.subResetAllAddresses then .bcResetAllAddresses
    else .bcReserved [c.allDevices, sub]
  | m :: bytes => if sub = c.subBusAssert then .bcBusAssert m bytes else .bcReserved (c.allDevices :: sub :: m :: bytes)

theorem decodeBroadcast_app (c : Config) (rest : List Byte) :
    decodeBroadcast c (c.protocolId :: rest) = .bcApp rest := by
  simp [decodeBroadcast]

theorem decodeBroadcast_foreign {c : Config} {b : Byte} (hp : b ≠ c.protocolId) (ha : b ≠ c.allDevices)
    (rest : List Byte) : decodeBroadcast c (b :: rest) = .bcReserved (b :: rest) := by
  simp [decodeBroadcast, uuidHead, hp, ha]

/-- An address field holds only addresses of its width (R101). -/
theorem addrOf_lt (field : List Byte) : (addrOf field).toNat < 256 ^ field.length := by
  rw [addrOf, BitVec.toNat_ofNat]
  exact lt_of_le_of_lt (Nat.mod_le _ _) (leVal_lt field)

/-- A UUID-addressed payload of no other row is reserved (R245). -/
theorem carries_uuidCommand {c : Config} (hc : c.Valid) (rest : List Byte) :
    Carries c (.broadcast (c.allDevices :: c.subUuid :: rest)) (uuidCommand c rest) := by
  unfold uuidCommand
  split_ifs with hnil hping hget hreset hset
  · exact ⟨by simp [encode, hnil], rfl⟩
  · exact ⟨by simp [encode, uuidHead, hping], rfl⟩
  · exact ⟨by simp [encode, uuidHead, hget], rfl⟩
  · exact ⟨by simp [encode, uuidHead, hreset], rfl⟩
  · obtain ⟨hlen, hhead⟩ := hset
    have hfield : (rest.drop 5).length = c.addrLen := by simp [hlen]
    have hwidth : c.addrLen ≤ 2 := by have := hc.addrLen_cases; omega
    have hrest : rest = uuidField c ++ [c.keySetAddress] ++ rest.drop 5 := by rw [← hhead, List.take_append_drop]
    constructor
    · rw [encode, addrField_addrOf hwidth hfield]
      conv_rhs => rw [hrest]
      simp [uuidHead]
    · simpa [operandsOk, hfield] using addrOf_lt (rest.drop 5)
  · exact ⟨rfl, by simp [operandsOk, hnil, hping, hget, hreset, hset]⟩

/-- Under a non-empty address field the address operand selects the row, whatever the keys (R244). -/
theorem uuidCommand_setAddress {c : Config} {a : Addr} (hwidth : 0 < c.addrLen) (ha : a.toNat < 256 ^ c.addrLen) :
    uuidCommand c (uuidField c ++ ([c.keySetAddress] ++ addrField c a)) = .bcUuidSetAddress a := by
  have hfield : addrField c a ≠ [] := List.ne_nil_of_length_pos (by rwa [addrField_length])
  have hlen : 4 + (c.addrLen + 1) = 5 + c.addrLen := by omega
  have hdrop : (uuidField c).drop 5 = [] := List.drop_eq_nil_of_le (by simp)
  simp [uuidCommand, hfield, hlen, List.take_append, List.drop_append, hdrop, addrOf_addrField ha]

theorem uuidCommand_of_noRow {c : Config} {rest : List Byte} (h : ¬ uuidRowMatches c rest) :
    uuidCommand c rest = .bcUuidReserved rest := by
  simp only [uuidRowMatches, not_or] at h
  simp only [uuidCommand, h, if_false]

section
variable {c : Config} (hp : c.allDevices ≠ c.protocolId)
include hp

theorem decodeBroadcast_short : decodeBroadcast c [c.allDevices] = .bcReserved [c.allDevices] := by
  simp [decodeBroadcast, uuidHead, hp]

theorem decodeBroadcast_uuid (rest : List Byte) :
    decodeBroadcast c (c.allDevices :: c.subUuid :: rest) = uuidCommand c rest := by
  have hlen : rest.length + 1 + 1 = 7 + c.addrLen ↔ rest.length = 5 + c.addrLen := by omega
  have hroom : 1 ≤ rest.length ↔ rest ≠ [] := List.length_pos_iff
  by_cases hrest : rest = [] <;> simp [decodeBroadcast, uuidCommand, uuidHead, hp, hlen, hroom, hrest]

theorem decodeBroadcast_uuidHead (tail : List Byte) :
    decodeBroadcast c (uuidHead c ++ tail) = uuidCommand c (uuidField c ++ tail) :=
  decodeBroadcast_uuid hp _

theorem decodeBroadcast_allDevices {sub : Byte} (hsub : sub ≠ c.subUuid) (ops : List Byte) :
    decodeBroadcast c (c.allDevices :: sub :: ops) = allDevicesCommand c sub ops := by
  cases ops <;> simp [decodeBroadcast, allDevicesCommand, uuidHead, hp, hsub]

/-- A payload for all devices of no other row is reserved (R258). -/
theorem carries_allDevicesCommand {sub : Byte} (hsub : sub ≠ c.subUuid) (ops : List Byte) :
    Carries c (.broadcast (c.allDevices :: sub :: ops)) (allDevicesCommand c sub ops) := by
  match ops with
  | [] =>
    rw [allDevicesCommand]
    split_ifs with hon hoff hall
    · exact ⟨by simp [encode, hon], rfl⟩
    · exact ⟨by simp [encode, hoff], rfl⟩
    · exact ⟨by simp [encode, hall], rfl⟩
    · exact ⟨rfl, by simp [operandsOk, hp, hsub, hon, hoff, hall]⟩
  | m :: bytes =>
    rw [allDevicesCommand]
    split_ifs with hassert
    · exact ⟨by simp [encode, hassert], rfl⟩
    · exact ⟨rfl, by simp [operandsOk, hp, hsub, hassert]⟩

end

/-- Every payload carries the broadcast command it decodes to. -/
theorem carries_decodeBroadcast {c : Config} (hc : c.Valid) (p : List Byte) :
    Carries c (.broadcast p) (decodeBroadcast c p) := by
  have hp := hc.allDevices_ne_protocolId
  rcases p with _ | ⟨b, rest⟩
  · exact ⟨rfl, rfl⟩
  by_cases hb : b = c.protocolId
  · subst hb
    rw [decodeBroadcast_app]
    exact ⟨rfl, rfl⟩
  by_cases ha : b = c.allDevices
  · subst ha
    match rest with
    | [] =>
      rw [decodeBroadcast_short hp]
      exact ⟨rfl, by simp [operandsOk, hp]⟩
    | sub :: ops =>
      by_cases hsub : sub = c.subUuid
      · subst hsub
        rw [decodeBroadcast_uuid hp]
        exact carries_uuidCommand hc ops
      · rw [decodeBroadcast_allDevices hp hsub]
        exact carries_allDevicesCommand hp hsub ops
  · rw [decodeBroadcast_foreign hb ha]
    exact ⟨rfl, by simp [operandsOk, hb, ha]⟩

/-! ## The command a payload carries is the one it decodes to -/

/-- Distinct codes, and the code or the length of a reserved request, leave each unicast row to its own command. -/
theorem decodeRequest_of_carries {c : Config} (hc : c.Valid) {p : List Byte} {i : Instr} (h : Carries c (.unicast p) i) :
    decodeRequest c p = i := by
  obtain ⟨hencode, hok⟩ := h
  obtain ⟨-, -, -, -, -, -, hnodup, -⟩ := hc
  have hcodes := baseCommand_codes hnodup
  simp only [Config.baseCodes, List.map_cons, List.cons.injEq] at hcodes
  obtain ⟨hname, huptime, hversion, hcorrect, hoverflow, hlost, hmismatch, hall, hreset, huuid, hext, -⟩ := hcodes
  cases i <;> simp only [encode, Wire.unicast.injEq, reduceCtorEq] at hencode <;> subst hencode
  case ping | deviceInfo => rfl
  case baseReserved2 code =>
    rw [decodeRequest_base]
    exact baseCommand_of_notMem (by simpa [operandsOk] using hok)
  case baseReservedN rest =>
    match rest with
    | [] | [_] => simp [operandsOk] at hok
    | x :: y :: rest => exact decodeRequest_baseLong c x y rest
  case appRequest p =>
    match p with
    | [] => simp [operandsOk] at hok
    | b :: rest => exact decodeRequest_app c (by simpa [operandsOk] using hok) rest
  all_goals
    rw [decodeRequest_base]
    assumption

/-- A payload that no other row takes is reserved (R258). -/
theorem decodeBroadcast_of_noRow {c : Config} {p : List Byte} (h : ¬ broadcastRowMatches c p) :
    decodeBroadcast c p = .bcReserved p := by
  simp only [broadcastRowMatches, not_or] at h
  obtain ⟨hnil, hproto, huuid, hon, hoff, hall, hassert⟩ := h
  have hhead : ∀ tail, p ≠ c.allDevices :: c.subUuid :: tail := by
    rintro tail rfl
    exact huuid rfl
  have hset : ∀ tail, p.take 7 ≠ c.allDevices :: c.subUuid :: tail := fun tail h =>
    huuid (by simpa [List.take_take] using congrArg (List.take 2) h)
  simpa [decodeBroadcast, uuidHead, hnil, hproto, huuid, hon, hoff, hall, hhead, hset] using hassert

/-- Distinct sub-commands and keys leave each broadcast row to its own command. -/
theorem decodeBroadcast_of_carries {c : Config} (hc : c.Valid) {p : List Byte} {i : Instr}
    (h : Carries c (.broadcast p) i) : decodeBroadcast c p = i := by
  obtain ⟨hencode, hok⟩ := h
  have hp := hc.allDevices_ne_protocolId
  have hwidth := hc.addrLen_cases
  obtain ⟨-, -, -, -, hsubs, hkeys, -⟩ := hc
  simp only [Config.subCodes, List.nodup_cons, List.mem_cons, List.not_mem_nil, or_false, not_or] at hsubs
  cases i <;> simp only [encode, Wire.broadcast.injEq, reduceCtorEq] at hencode <;> subst hencode
  case bcLegacy => rfl
  case bcApp rest => exact decodeBroadcast_app c rest
  case bcUuidRequest => exact decodeBroadcast_uuid hp []
  case bcUuidPing =>
    have hsome : uuidField c ≠ [] := List.ne_nil_of_length_pos (by simp)
    rw [← List.append_nil (uuidHead c), decodeBroadcast_uuidHead hp]
    simp [uuidCommand, hsome]
  case bcUuidGetAddress =>
    rw [decodeBroadcast_uuidHead hp]
    simp [uuidCommand]
  case bcUuidResetAddress =>
    rw [decodeBroadcast_uuidHead hp]
    simp [uuidCommand, hkeys.symm]
  case bcUuidSetAddress a =>
    rw [List.append_assoc, decodeBroadcast_uuidHead hp]
    exact uuidCommand_setAddress (by omega) (of_decide_eq_true hok)
  case bcUuidReserved rest => exact (decodeBroadcast_uuid hp rest).trans (uuidCommand_of_noRow (of_decide_eq_true hok))
  case bcEnableNeighbours | bcDisableNeighbours | bcResetAllAddresses =>
    rw [decodeBroadcast_allDevices hp (by simp [hsubs, eq_comm])]
    simp [allDevicesCommand, hsubs, eq_comm]
  case bcBusAssert m bytes =>
    exact (decodeBroadcast_allDevices hp (by simp [hsubs, eq_comm]) _).trans (if_pos rfl)
  case bcReserved p => exact decodeBroadcast_of_noRow (of_decide_eq_true hok)

/-! ## The event codes (R130) -/

/-- A byte is its two digits, the high one first. -/
theorem digits_append (b : Byte) : b.extractLsb' 4 4 ++ b.extractLsb' 0 4 = b :=
  (BitVec.extractLsb'_append_extractLsb'_eq_extractLsb' rfl).trans BitVec.extractLsb'_eq_self

/-- Settles O4: a code is one digit, and only `RX_BYTE` has operand digits. -/
theorem eventStreamParses : Obligations.EventStreamParses := by
  intro c i ds rest hencode
  cases i <;> simp only [encode, Wire.event.injEq, reduceCtorEq] at hencode <;> subst hencode
  case rxByte b =>
    show Except.ok (Instr.rxByte (b.extractLsb' 4 4 ++ b.extractLsb' 0 4), rest) = _
    rw [digits_append]
  all_goals rfl

/-- Settles O5: the ten codes that are read are below 10. -/
theorem unusedEventCodesRefused : Obligations.UnusedEventCodesRefused := by
  intro d rest hd
  obtain ⟨n, hn⟩ := Nat.exists_eq_add_of_le' hd
  simp only [decodeEvent, hn]

/-- Settles O6, word by word. -/
theorem sampleWordsDecode : Obligations.SampleWordsDecode := by
  unfold Obligations.SampleWordsDecode
  decide

/-! ## The round trip (R108 to R112, R130) -/

/-- Settles O1: an event code is read back, and a payload is read as the command it carries. -/
theorem decodeOfEncode : Obligations.DecodeOfEncode := by
  rintro c hc i ⟨hok, -⟩
  cases hwire : encode c i with
  | event ds =>
    have hread := eventStreamParses c i ds [] hwire
    rw [List.append_nil] at hread
    simp only [decode, hread]
  | unicast p => simp only [decode, decodeRequest_of_carries hc ⟨hwire, hok⟩]
  | broadcast p => simp only [decode, decodeBroadcast_of_carries hc ⟨hwire, hok⟩]

/-- Settles O2: a payload carries the command it decodes to. -/
theorem encodeOfDecode : Obligations.EncodeOfDecode := fun c hc p =>
  ⟨(carries_decodeRequest c p).1, (carries_decodeBroadcast hc p).1⟩

open Laws.EncodedLength in
/-- The length of a payload is the one the row of its command gives, for every instruction (R108 to R110). -/
theorem encodedLength : ∀ i, Statement i
  | .reset => reset | .rxByte b => rxByte b | .rxTimeout => rxTimeout | .pePoll => pePoll
  | .peSuspendRx => peSuspendRx | .peVerify => peVerify | .peDispatch => peDispatch | .txReady => txReady
  | .txComplete => txComplete | .tick => tick | .ping => ping | .deviceInfo => deviceInfo | .getName => getName
  | .getUptime => getUptime | .getVersion => getVersion | .getCountCorrect => getCountCorrect
  | .getCountOverflow => getCountOverflow | .getCountLost => getCountLost | .getCountMismatch => getCountMismatch
  | .getCountAll => getCountAll | .resetCounts => resetCounts | .getUuid => getUuid
  | .getExtendedInfo => getExtendedInfo | .baseReserved2 code => baseReserved2 code
  | .baseReservedN rest => baseReservedN rest | .appRequest p => appRequest p | .bcLegacy => bcLegacy
  | .bcApp rest => bcApp rest | .bcUuidRequest => bcUuidRequest | .bcUuidPing => bcUuidPing
  | .bcUuidGetAddress => bcUuidGetAddress | .bcUuidResetAddress => bcUuidResetAddress
  | .bcUuidSetAddress a => bcUuidSetAddress a | .bcUuidReserved rest => bcUuidReserved rest
  | .bcEnableNeighbours => bcEnableNeighbours | .bcDisableNeighbours => bcDisableNeighbours
  | .bcResetAllAddresses => bcResetAllAddresses | .bcBusAssert m bytes => bcBusAssert m bytes
  | .bcReserved p => bcReserved p

/-- An instruction carried by a payload that can be received is well formed: its frame is within the longest frame the
receiver accepts (R102). -/
theorem wellFormed_of_carries {c : Config} {p : List Byte} {i : Instr}
    (h : Carries c (.unicast p) i ∨ Carries c (.broadcast p) i)
    (hfits : p.length + c.addrLen + c.csumLen ≤ c.bufSize - 1) : WellFormed c i := by
  have hlen := encodedLength i c
  rcases h with ⟨hencode, hok⟩ | ⟨hencode, hok⟩ <;>
    rw [hencode] at hlen <;> exact ⟨hok, hlen ▸ hfits⟩

/-- Settles O3: the command a payload carries matches its row and is as long as the payload. -/
theorem decodedCommandsWellFormed : Obligations.DecodedCommandsWellFormed := fun c hc p hfits =>
  ⟨wellFormed_of_carries (.inl (carries_decodeRequest c p)) hfits,
    wellFormed_of_carries (.inr (carries_decodeBroadcast hc p)) hfits⟩

/-! ## Frames (R103, R144) -/

/-- Settles O11: the last byte of the frame is the checksum of the bytes before it, and there is room for it. -/
theorem appendedChecksumVerifies : Obligations.AppendedChecksumVerifies := by
  intro c hc a p
  have hroom : ¬ (frameBytes c a p).length < c.addrLen + c.csumLen := by
    have hone := hc.csumLen_eq
    rw [frameBytes_length]
    omega
  rw [csumOk, if_neg hroom]
  simp [frameBytes]

end Sys2Proof

namespace Sys2Proof.Machine

/-! ## The dispatch of a frame (R107, R175) -/

/-- The command a frame stands for is a frame command: its encoding is the frame's payload (R107). -/
theorem encode_commandOf_ne_event {c : Config} (hc : c.Valid) (a : Addr) (p : List Byte) (ds : List Digit) :
    encode c (commandOf c a p) ≠ .event ds := by
  obtain ⟨hunicast, hbroadcast⟩ := encodeOfDecode c hc p
  unfold commandOf
  split
  · simp [hbroadcast]
  · simp [hunicast]

/-- Settles O9: both run, under one enabling condition, the handler of the command the frame decodes to. -/
theorem dispatchRunsDecodedCommand : Obligations.DispatchRunsDecodedCommand := by
  intro s a p hc hlatched
  have hdispatch : dispatchFrame s = finishDispatch (handlerOf (commandOf s.cfg a p) s) := by
    rw [dispatchFrame, hlatched, ← processFrame_eq_handlerOf]
  rw [exec_frameCommand (encode_commandOf_ne_event hc a p)]
  show perform (s.pePhase = .dispatch) s dispatchFrame = _
  simp only [perform, hdispatch]

/-! ## A burst of bytes, the idle gap and the engine's three steps (R105, R150, R155, R171 to R177) -/

theorem performAll_cons {i : Instr} {s t : State} (h : exec i s = .next t) (rest : List Instr) :
    performAll (i :: rest) s = performAll rest t := by
  simp only [performAll, h]

/-- What a sequence leaves, the rest of it starts from. -/
theorem performAll_append {is : List Instr} : ∀ {s t : State}, performAll is s = .next t → ∀ rest : List Instr,
    performAll (is ++ rest) s = performAll rest t := by
  induction is with
  | nil =>
    intro s t h rest
    cases h
    rfl
  | cons i is ih =>
    intro s t h rest
    cases hi : exec i s with
    | next u =>
      rw [performAll_cons hi] at h
      rw [List.cons_append, performAll_cons hi, ih h]
    | fault e => simp [performAll, hi] at h
    | refused r => simp [performAll, hi] at h

/-- A block read answers the bytes the block holds. -/
theorem memRead_of_holds {s : State} {sp : Space} {a n : Nat} {bs : List Byte} (h : Holds (s.buffer sp) a bs)
    (hn : bs.length = n) (hin : a + n ≤ s.cfg.bufSize) : memRead s sp a n = .ok bs := by
  subst hn
  exact memRead_of_bytes s sp bs a hin h

theorem holds_writeAll (m : Memory) (a : Nat) (bs : List Byte) : Holds (m.writeAll a bs) a bs := by
  intro k hk
  rw [Memory.read_writeAll, if_pos (by omega), Nat.add_sub_cancel_left]

/-- A block is held exactly when its front is held and its back right behind it. -/
theorem holds_append {m : Memory} {a : Nat} {front back : List Byte} :
    Holds m a (front ++ back) ↔ Holds m a front ∧ Holds m (a + front.length) back := by
  constructor
  · refine fun h => ⟨fun k hk => ?_, fun k hk => ?_⟩
    · rw [h k (by simp; omega), List.getElem?_append_left hk]
    · rw [Nat.add_assoc, h _ (by simpa using hk), List.getElem?_append_right (by omega), Nat.add_sub_cancel_left]
  · rintro ⟨hfront, hback⟩ k hk
    rw [List.length_append] at hk
    by_cases hin : k < front.length
    · rw [hfront k hin, List.getElem?_append_left hin]
    · rw [List.getElem?_append_right (by omega), ← hback _ (by omega)]
      congr 1
      omega

/-- The state after bytes that do not fill the buffer, reception enabled (R150 to R153). -/
def afterBytes (bs : List Byte) (s : State) : State :=
  { s with
    rx := s.rx.writeAll s.rxOffset bs
    rxOffset := s.rxOffset + bs.length
    pendingLen := if bs = [] then s.pendingLen else 0
    lostFlag := s.lostFlag || (bs ≠ [] ∧ s.pendingLen ≠ 0)
    timerArmed := s.timerArmed || bs ≠ []
    trace := s.trace ++ List.replicate bs.length .timerRestart }

theorem afterBytes_cons (b : Byte) (rest : List Byte) (s : State) :
    afterBytes rest (afterBytes [b] s) = afterBytes (b :: rest) s := by
  have hoffset : s.rxOffset + 1 + rest.length = s.rxOffset + (rest.length + 1) := by omega
  simp [afterBytes, Memory.writeAll, hoffset, List.replicate_succ]

/-- Bytes that do not fill the buffer are all received (R105, R150). -/
theorem performAll_rxBytes : ∀ (bs : List Byte) {s : State}, s.fault = none → s.rxEnable = true →
    s.rxOffset + bs.length < s.cfg.bufSize → performAll (bs.map .rxByte) s = .next (afterBytes bs s) := by
  intro bs
  induction bs with
  | nil =>
    intro s _ _ _
    simp [performAll, afterBytes, Memory.writeAll]
  | cons b rest ih =>
    intro s hf he hroom
    rw [List.length_cons] at hroom
    have hwrap : wrapsNow s = false := decide_eq_false (by omega)
    have hbyte : exec (.rxByte b) s = .next (afterBytes [b] s) := by
      refine perform_eq_next.2 ⟨hf, rfl, ?_⟩
      rw [receiveByte_of_enabled he (by omega)]
      simp [afterBytes, hwrap, Memory.writeAll]
    have hnext : (afterBytes [b] s).rxOffset + rest.length < s.cfg.bufSize := by
      simp only [afterBytes, List.length_singleton]
      omega
    rw [List.map_cons, performAll_cons hbyte, ih (s := afterBytes [b] s) hf he hnext, afterBytes_cons]

/-- `RX_TIMEOUT` accepts a frame of two bytes or more with an accepted leading address and no overflow (R155, R156). -/
theorem endBurst_of_accepted {s : State} {field : List Byte} (hov : s.overflowFlag = false) (hlen : 1 < s.rxOffset)
    (hfield : Holds s.rx 0 field) (hwidth : field.length = s.cfg.addrLen) (hin : s.cfg.addrLen ≤ s.cfg.bufSize)
    (haddr : addrOf field = s.myAddress ∨ addrOf field = s.cfg.broadcastAddr) :
    endBurst s = .ok { s with
      timerArmed := false
      cntLost := if s.lostFlag = true then s.cntLost + 1 else s.cntLost
      lostFlag := false
      pendingLen := s.rxOffset
      heartbeatSuppress := true
      rxOffset := 0 } := by
  have hread : memRead (flushDeferred s) .rx 0 s.cfg.addrLen = .ok field := by
    rw [flushDeferred_eq]
    exact memRead_of_holds hfield hwidth (by simpa using hin)
  have hlength : lengthAccepted (flushDeferred s) = true := by
    rw [flushDeferred_eq]
    simp [lengthAccepted, hov, hlen]
  have haccept : addressAccepted (flushDeferred s) (addrOf field) = true := by
    rw [flushDeferred_eq]
    simpa [addressAccepted] using haddr
  have hcfg : (flushDeferred s).cfg = s.cfg := by rw [flushDeferred_eq]
  rw [endBurst, judgeFrame, if_pos hlength, hcfg, hread]
  simp only [haccept, if_true]
  rw [flushDeferred_eq]
  simp [acceptFrame, rearm, hov]

/-- The state with an accepted burst as its pending frame; the frame pending before it, or marked as lost, is counted
once (R151, R155, R156). -/
def afterAccepted (f : List Byte) (s : State) : State :=
  { s with
    rx := s.rx.writeAll 0 f
    pendingLen := f.length
    heartbeatSuppress := true
    cntLost := if s.lostFlag = true ∨ s.pendingLen ≠ 0 then s.cntLost + 1 else s.cntLost
    lostFlag := false
    timerArmed := false
    trace := s.trace ++ List.replicate f.length .timerRestart }

/-- A burst of two bytes or more that fits the buffer and has an accepted leading address becomes the pending frame
(R105, R151, R155, R156). -/
theorem performAll_burst_accepted {s : State} {f : List Byte} (hf : s.fault = none) (hc : s.cfg.Valid)
    (he : s.rxEnable = true) (hoff : s.rxOffset = 0) (hov : s.overflowFlag = false) (htwo : 2 ≤ f.length)
    (hroom : f.length < s.cfg.bufSize)
    (haddr : addrOf (f.take s.cfg.addrLen) = s.myAddress ∨ addrOf (f.take s.cfg.addrLen) = s.cfg.broadcastAddr) :
    performAll (burst f) s = .next (afterAccepted f s) := by
  have hsome : f ≠ [] := List.ne_nil_of_length_pos (by omega)
  have hwidth : s.cfg.addrLen ≤ f.length := by have := hc.addrLen_cases; omega
  have hfield : Holds (afterBytes f s).rx 0 (f.take s.cfg.addrLen) := by
    have hall : Holds (s.rx.writeAll 0 f) 0 f := holds_writeAll s.rx 0 f
    rw [← List.take_append_drop s.cfg.addrLen f, holds_append] at hall
    simpa [afterBytes, hoff] using hall.1
  have hend : endBurst (afterBytes f s) = _ :=
    endBurst_of_accepted hov (by simp [afterBytes]; omega) hfield (by simpa [afterBytes] using hwidth)
      (by simp only [afterBytes]; omega) haddr
  have htimeout : exec .rxTimeout (afterBytes f s) = _ :=
    perform_eq_next.2 ⟨hf, by simp [enabledWhen, afterBytes, hsome], hend⟩
  rw [burst, performAll_append (performAll_rxBytes f hf he (by omega)), performAll_cons htimeout]
  simp [performAll, afterAccepted, afterBytes, hoff, hsome]

theorem exec_pePoll {s : State} (hf : s.fault = none) (hphase : s.pePhase = .idle) :
    exec .pePoll s = .next (pollFrame s) :=
  (perform_eq_next (f := fun s => .ok (pollFrame s))).2 ⟨hf, decide_eq_true hphase, rfl⟩

theorem exec_peSuspendRx {s : State} (hf : s.fault = none) (hphase : s.pePhase = .latched) :
    exec .peSuspendRx s = .next (suspendReception s) :=
  (perform_eq_next (f := fun s => .ok (suspendReception s))).2 ⟨hf, decide_eq_true hphase, rfl⟩

/-- A latched frame with a right checksum is confirmed (R173). -/
theorem exec_peVerify_of_csumOk {s : State} {f : List Byte} (hf : s.fault = none) (hphase : s.pePhase = .verify)
    (hlen : f.length = s.peLen) (hholds : Holds s.rx 0 f) (hroom : s.peLen ≤ s.cfg.bufSize)
    (hok : csumOk s.cfg f = true) : exec .peVerify s = .next (confirmFrame s) := by
  refine perform_eq_next.2 ⟨hf, decide_eq_true hphase, ?_⟩
  have hread : memRead s .rx 0 s.peLen = .ok f := memRead_of_holds hholds hlen (by omega)
  simp only [verifyFrame, hread, hok, if_true]

/-- A pending frame is taken: its length latched, the slot cleared, the heartbeat released (R171). -/
theorem pollFrame_of_pending {s : State} (h : s.pendingLen ≠ 0) : pollFrame s = { s with
    peLen := s.pendingLen
    pendingLen := 0
    heartbeatSuppress := false
    pePhase := .latched } :=
  if_neg h

/-- The engine takes a pending frame with a right checksum, suspends reception, counts the frame and comes to
`PE_DISPATCH` (R171 to R173). -/
theorem performAll_engine {s : State} {f : List Byte} (hf : s.fault = none) (hphase : s.pePhase = .idle)
    (hlen : f.length = s.pendingLen) (hsome : f ≠ []) (hholds : Holds s.rx 0 f) (hroom : s.pendingLen ≤ s.cfg.bufSize)
    (hok : csumOk s.cfg f = true) :
    performAll [.pePoll, .peSuspendRx, .peVerify] s = .next (confirmFrame (suspendReception (pollFrame s))) := by
  have hpending : s.pendingLen ≠ 0 := by rwa [← hlen, ne_eq, List.length_eq_zero_iff]
  have hsuspend : exec .peSuspendRx (pollFrame s) = .next (suspendReception (pollFrame s)) := by
    rw [pollFrame_of_pending hpending]
    exact exec_peSuspendRx hf rfl
  have hverify : exec .peVerify (suspendReception (pollFrame s)) =
      .next (confirmFrame (suspendReception (pollFrame s))) := by
    rw [pollFrame_of_pending hpending]
    exact exec_peVerify_of_csumOk hf rfl hlen hholds hroom hok
  rw [performAll_cons (exec_pePoll hf hphase), performAll_cons hsuspend, performAll_cons hverify, performAll]

/-- The frame in `RX` is read back as its address and its payload, stripped of address field and checksum (R72, R177). -/
theorem latchedFrame_of_frameBytes {s : State} {a : Addr} {p : List Byte} (hc : s.cfg.Valid)
    (ha : a.toNat < 256 ^ s.cfg.addrLen) (hlen : s.peLen = s.cfg.addrLen + p.length + 1)
    (hroom : s.peLen ≤ s.cfg.bufSize) (hholds : Holds s.rx 0 (frameBytes s.cfg a p)) :
    latchedFrame s = .ok (a, p) := by
  have hone := hc.csumLen_eq
  rw [frameBytes, holds_append, holds_append] at hholds
  obtain ⟨⟨hfield, hpayload⟩, -⟩ := hholds
  have hreadField : memRead s .rx 0 s.cfg.addrLen = .ok (addrField s.cfg a) :=
    memRead_of_holds hfield (addrField_length _ _) (by omega)
  have hreadPayload : memRead s .rx s.cfg.addrLen (s.peLen - s.cfg.addrLen - s.cfg.csumLen) = .ok p :=
    memRead_of_holds (by simpa using hpayload) (by omega) (by omega)
  simp only [latchedFrame, hreadField, hreadPayload, addrOf_addrField ha]

/-- Settles O55: the burst becomes the pending frame, the engine takes and verifies it, and it is read back. -/
theorem validFrameReachesDispatch : Obligations.ValidFrameReachesDispatch := by
  intro s a p hf hc hphase he hoff hov ha haddr hroom
  have hlen : (frameBytes s.cfg a p).length = s.cfg.addrLen + p.length + 1 := frameBytes_length _ _ _
  have hwidth := hc.addrLen_cases
  have hsome : frameBytes s.cfg a p ≠ [] := List.ne_nil_of_length_pos (by omega)
  have htake : (frameBytes s.cfg a p).take s.cfg.addrLen = addrField s.cfg a := by
    simp [frameBytes]
  have hburst := performAll_burst_accepted (f := frameBytes s.cfg a p) hf hc he hoff hov (by omega) (by omega)
    (by rwa [htake, addrOf_addrField ha])
  have hholds := holds_writeAll s.rx 0 (frameBytes s.cfg a p)
  have hfits : (frameBytes s.cfg a p).length ≤ s.cfg.bufSize := by omega
  have hpending : (afterAccepted (frameBytes s.cfg a p) s).pendingLen ≠ 0 := mt List.length_eq_zero_iff.1 hsome
  rw [performAll_append hburst]
  refine ⟨_, performAll_engine hf hphase rfl hsome hholds hfits (appendedChecksumVerifies s.cfg hc a p), ?_⟩
  rw [pollFrame_of_pending hpending]
  exact ⟨latchedFrame_of_frameBytes hc ha hlen hfits hholds, rfl, rfl, rfl, rfl, rfl, rfl, rfl, rfl, hf⟩

end Sys2Proof.Machine

namespace Sys2Proof

/-! ## The checksum unit (R141 to R147) -/

/-- Appending the checksum of what came before leaves 0 in the XOR register (R141). -/
theorem xor8_append_self (s : List Byte) : xor8 (s ++ [xor8 s]) = 0 :=
  (xor8_append_byte s _).trans BitVec.xor_self

@[simp] theorem crc8Shift_zero (poly : Byte) : crc8Shift poly 0 = 0 := by
  simp [crc8Shift]

@[simp] theorem crc8Shifts_zero (poly : Byte) (n : Nat) : crc8Shifts poly n 0 = 0 := by
  induction n with
  | zero => rfl
  | succ n ih => rw [crc8Shifts, crc8Shift_zero, ih]

/-- A byte equal to the register cancels it, and the shifts keep 0 (R142). -/
theorem crc8Byte_self (poly c : Byte) : crc8Byte poly c c = 0 := by
  have hcancel : c ^^^ c = 0 := BitVec.xor_self
  rw [crc8Byte, hcancel, crc8Shifts_zero]

/-- Settles O12: the appended byte equals the register, so both algorithms are left with 0. -/
theorem checksumResidueIsZero : Obligations.ChecksumResidueIsZero := fun c s =>
  ⟨xor8_append_self s, by rw [crc8_append_byte, crc8Byte_self]⟩

/-- Settles O10: the last byte is compared, and one byte for the checksum is all the room beyond the address. -/
theorem verifyComparesLastByte : Obligations.VerifyComparesLastByte := by
  intro c hc
  have hone := hc.csumLen_eq
  refine ⟨?_, fun f x => ?_⟩
  · have hshort : ([] : List Byte).length < c.addrLen + c.csumLen := by simp [hone]
    rw [csumOk, if_pos hshort]
  · have hroom : (f ++ [x]).length < c.addrLen + c.csumLen ↔ ¬ c.addrLen ≤ f.length := by
      rw [List.length_append, List.length_singleton]
      omega
    simp only [csumOk, hroom]
    by_cases h : c.addrLen ≤ f.length <;> simp [h, eq_comm]

/-! ### Error detection (R147) -/

/-- With a constant term of 1 the lowest bit after a shift is the bit that was shifted out. -/
theorem crc8Shift_getLsbD_zero {poly : Byte} (hpoly : poly.getLsbD 0 = true) (c : Byte) :
    (crc8Shift poly c).getLsbD 0 = c.msb := by
  cases h : c.msb <;> simp [crc8Shift, h, hpoly]

/-- The bit shifted out and the seven that remain determine the byte. -/
theorem eq_of_msb_eq_of_shiftLeft_eq {c d : Byte} (hmsb : c.msb = d.msb) (hshift : c <<< 1 = d <<< 1) : c = d := by
  refine BitVec.eq_of_getElem_eq fun i hi => ?_
  obtain hlow | rfl : i < 7 ∨ i = 7 := by omega
  · have hbit := congrArg (fun v => BitVec.getLsbD v (i + 1)) hshift
    simpa [Nat.succ_lt_succ hlow] using hbit
  · simpa [BitVec.msb_eq_getLsbD_last] using hmsb

/-- A shift loses nothing when the polynomial's constant term is 1 (R147). -/
theorem crc8Shift_injective {poly : Byte} (hpoly : poly.getLsbD 0 = true) : Function.Injective (crc8Shift poly) := by
  intro c d h
  have hmsb : c.msb = d.msb := by
    rw [← crc8Shift_getLsbD_zero hpoly c, h, crc8Shift_getLsbD_zero hpoly d]
  refine eq_of_msb_eq_of_shiftLeft_eq hmsb ?_
  cases hd : d.msb <;> simpa [crc8Shift, hmsb, hd] using h

theorem crc8Shifts_injective {poly : Byte} (hpoly : poly.getLsbD 0 = true) (n : Nat) :
    Function.Injective (crc8Shifts poly n) := by
  induction n with
  | zero => exact Function.injective_id
  | succ n ih => exact ih.comp (crc8Shift_injective hpoly)

/-- A byte step that loses neither the register nor the byte carries an error in one byte to the end of the fold. -/
theorem foldl_ne_of_byte_ne {f : Byte → Byte → Byte} (hregister : ∀ b, Function.Injective (f · b))
    (hbyte : ∀ c, Function.Injective (f c)) (init : Byte) (front back : List Byte) {b b' : Byte} (hne : b ≠ b') :
    (front ++ b :: back).foldl f init ≠ (front ++ b' :: back).foldl f init := by
  have hback : Function.Injective (back.foldl f) := by
    induction back with
    | nil => exact Function.injective_id
    | cons x back ih => exact ih.comp (hregister x)
  rw [List.foldl_append, List.foldl_append]
  exact hback.ne ((hbyte _).ne hne)

/-- XOR detects an error confined to one byte (R147). -/
theorem xor8_ne_of_byte_ne (front back : List Byte) {b b' : Byte} (hne : b ≠ b') :
    xor8 (front ++ b :: back) ≠ xor8 (front ++ b' :: back) :=
  foldl_ne_of_byte_ne (f := fun c b => c ^^^ b) (fun b _ _ => (BitVec.xor_left_inj b).1)
    (fun c _ _ => (BitVec.xor_right_inj c).1) 0x00 front back hne

theorem crc8Byte_injective_register {poly : Byte} (hpoly : poly.getLsbD 0 = true) (b : Byte) :
    Function.Injective (crc8Byte poly · b) := fun _ _ h =>
  (BitVec.xor_left_inj b).1 (crc8Shifts_injective hpoly 8 h)

theorem crc8Byte_injective_byte {poly : Byte} (hpoly : poly.getLsbD 0 = true) (c : Byte) :
    Function.Injective (crc8Byte poly c) := fun _ _ h =>
  (BitVec.xor_right_inj c).1 (crc8Shifts_injective hpoly 8 h)

/-- CRC8 detects an error confined to one byte when the polynomial's constant term is 1 (R147). -/
theorem crc8_ne_of_byte_ne {c : Config} (hpoly : c.crc8Poly.getLsbD 0 = true) (front back : List Byte)
    {b b' : Byte} (hne : b ≠ b') : crc8 c (front ++ b :: back) ≠ crc8 c (front ++ b' :: back) :=
  foldl_ne_of_byte_ne (crc8Byte_injective_register hpoly) (crc8Byte_injective_byte hpoly) c.crc8Init front back hne

/-- Settles O13: the byte step of either algorithm is injective in the register and in the byte. -/
theorem oneByteErrorDetected : Obligations.OneByteErrorDetected := by
  intro c hdetects front back b b' hne
  cases hkind : c.csumKind with
  | xor =>
    rw [csum_xor hkind, csum_xor hkind]
    exact xor8_ne_of_byte_ne front back hne
  | crc8 =>
    have hpoly : c.crc8Poly.getLsbD 0 = true := hdetects.resolve_left (by simp [hkind])
    rw [csum_crc8 hkind, csum_crc8 hkind]
    exact crc8_ne_of_byte_ne hpoly front back hne

end Sys2Proof

namespace Sys2Proof.Machine

/-! ## The Frame Receiver and the Timeout Arbiter (R150 to R159) -/

/-- Settles O27: the byte is stored at the write offset, inside `RX`; every other byte reads as before. -/
theorem receiveByteEffect : Obligations.ReceiveByteEffect := by
  intro b s hf
  constructor
  · intro hoff
    have hnone : receiveByte b s = .ok s := by simp [receiveByte, hoff]
    exact perform_eq_next.2 ⟨hf, rfl, hnone⟩
  · intro hon hlt
    refine ⟨_, perform_eq_next.2 ⟨hf, rfl, receiveByte_of_enabled hon hlt⟩, ?_, Memory.read_write s.rx s.rxOffset b⟩
    simp [wrapsNow]

/-- The error class of a foreign address has no effect at all (R304). -/
@[simp] theorem raiseError_addressMismatch (s : State) : raiseError .addressMismatch s = s := by
  simp [raiseError]

/-- The acceptance test of `RX_TIMEOUT` (R156), `field` being the leading address field of `RX`. -/
abbrev Acceptable (field : List Byte) (s : State) : Prop :=
  s.overflowFlag = false ∧ 1 < s.rxOffset ∧ (addrOf field = s.myAddress ∨ addrOf field = s.cfg.broadcastAddr)

/-- `field` is what `RX_TIMEOUT` reads as the leading address field, where it reads it at all (R155, R156). -/
def LeadingField (field : List Byte) (s : State) : Prop :=
  s.overflowFlag = false → 1 < s.rxOffset →
    field.length = s.cfg.addrLen ∧ s.cfg.addrLen ≤ s.cfg.bufSize ∧ Holds s.rx 0 field

/-- A frame that fails the acceptance test is dropped, and the drop changes nothing (R155, R156). -/
theorem judgeFrame_of_not_acceptable {field : List Byte} {s : State} (hfield : LeadingField field s)
    (hno : ¬ Acceptable field s) : judgeFrame s = .ok s := by
  by_cases hlength : lengthAccepted s = true
  · obtain ⟨hov, htwo⟩ : s.overflowFlag = false ∧ 1 < s.rxOffset := by simpa [lengthAccepted] using hlength
    obtain ⟨hwidth, hin, hholds⟩ := hfield hov htwo
    have hread : memRead s .rx 0 s.cfg.addrLen = .ok field := memRead_of_holds hholds hwidth (by omega)
    have hforeign : ¬ addressAccepted s (addrOf field) = true := fun haddr =>
      hno ⟨hov, htwo, by simpa [addressAccepted] using haddr⟩
    simp only [judgeFrame, if_pos hlength, hread, if_neg hforeign, raiseError_addressMismatch]
  · rw [judgeFrame, if_neg hlength]

/-- `RX_TIMEOUT` on a frame that fails the acceptance test flushes the deferred counters and re-arms (R155 to R158). -/
theorem endBurst_of_not_acceptable {field : List Byte} {s : State} (hfield : LeadingField field s)
    (hno : ¬ Acceptable field s) :
    endBurst s = .ok { s with
      timerArmed := false
      cntLost := if s.lostFlag = true then s.cntLost + 1 else s.cntLost
      lostFlag := false
      cntOverflow := if s.overflowFlag = true then s.cntOverflow + 1 else s.cntOverflow
      rxOffset := 0
      overflowFlag := false } := by
  have hjudge : judgeFrame (flushDeferred s) = .ok (flushDeferred s) := by
    rw [flushDeferred_eq]
    exact judgeFrame_of_not_acceptable hfield hno
  rw [endBurst, hjudge, flushDeferred_eq]
  rfl

/-- Settles O28: by the outcome of the acceptance test. -/
theorem receiveTimeoutEffect : Obligations.ReceiveTimeoutEffect := by
  intro s field hf harmed hfield
  refine perform_eq_next.2 ⟨hf, harmed, ?_⟩
  by_cases haccept : Acceptable field s
  · obtain ⟨hov, htwo, haddr⟩ := haccept
    obtain ⟨hwidth, hin, hholds⟩ := hfield hov htwo
    rw [endBurst_of_accepted hov htwo hholds hwidth hin haddr]
    simp [hov, htwo, haddr]
  · rw [endBurst_of_not_acceptable hfield haccept, if_neg haccept, if_neg haccept]

/-! ### Bursts (R105, R151, R152, R159) -/

/-- Settles O52: the accepted burst lies in `RX` from index 0. -/
theorem burstBecomesPending : Obligations.BurstBecomesPending := by
  intro s f hf hc he hoff hov htwo hroom haddr
  refine ⟨afterAccepted f s, performAll_burst_accepted hf hc he hoff hov htwo hroom haddr, rfl, fun j => ?_⟩
  simp [afterAccepted, Memory.read_writeAll]

/-- A burst is its bytes and then the idle gap, which the restarted timer reports (R105, R153, R155). -/
theorem performAll_burst {f : List Byte} {s t u : State} (hbytes : performAll (f.map .rxByte) s = .next u)
    (hf : u.fault = none) (harmed : u.timerArmed = true) (hend : endBurst u = .ok t) :
    performAll (burst f) s = .next t := by
  have htimeout : exec .rxTimeout u = .next t := perform_eq_next.2 ⟨hf, harmed, hend⟩
  rw [burst, performAll_append hbytes, performAll_cons htimeout, performAll]

/-- What a burst from offset 0 has written begins with the burst's leading address field (R101, R150). -/
theorem leadingField_afterBytes {f : List Byte} {s : State} (hc : s.cfg.Valid) (hoff : s.rxOffset = 0)
    (hroom : f.length < s.cfg.bufSize) : LeadingField (f.take s.cfg.addrLen) (afterBytes f s) := by
  intro _ htwo
  have hlen : 1 < f.length := by simpa [afterBytes, hoff] using htwo
  have hwidth : s.cfg.addrLen ≤ f.length := by have := hc.addrLen_cases; omega
  have hall : Holds (s.rx.writeAll 0 f) 0 (f.take s.cfg.addrLen ++ f.drop s.cfg.addrLen) := by
    rw [List.take_append_drop]
    exact holds_writeAll s.rx 0 f
  obtain ⟨hfront, -⟩ := holds_append.1 hall
  refine ⟨List.length_take_of_le hwidth, hwidth.trans hroom.le, ?_⟩
  simpa only [afterBytes, hoff] using hfront

/-- Settles O53: the burst fails the acceptance test by its length or by its address. -/
theorem unacceptedBurstIgnored : Obligations.UnacceptedBurstIgnored := by
  intro s f hf hc he hoff hov hsome hroom hunaccepted
  have hno : ¬ Acceptable (f.take s.cfg.addrLen) (afterBytes f s) := by
    rintro ⟨-, htwo, haddr⟩
    have hlen : 1 < f.length := by simpa [afterBytes, hoff] using htwo
    rcases hunaccepted with hone | ⟨hown, hbroadcast⟩
    · omega
    · exact haddr.elim hown hbroadcast
  have hend := endBurst_of_not_acceptable (leadingField_afterBytes hc hoff hroom) hno
  refine ⟨_, performAll_burst (performAll_rxBytes f hf he (by omega)) hf (by simp [afterBytes, hsome]) hend, ?_⟩
  simp [afterBytes, hov, hoff, hsome]

/-- The state after any number of bytes, reception enabled: the write offset runs around the buffer, and filling it
leaves the overflow flag set (R150 to R153). `m` is what `RX` holds then. -/
def afterWrapping (m : Memory) (bs : List Byte) (s : State) : State :=
  { afterBytes bs s with
    rx := m
    rxOffset := (s.rxOffset + bs.length) % s.cfg.bufSize
    overflowFlag := s.overflowFlag || s.cfg.bufSize ≤ s.rxOffset + bs.length }

theorem afterWrapping_cons {m m' : Memory} (b : Byte) (rest : List Byte) {s : State}
    (hlt : s.rxOffset < s.cfg.bufSize) :
    afterWrapping m' rest (afterWrapping m [b] s) = afterWrapping m' (b :: rest) s := by
  have hoffset : ((s.rxOffset + 1) % s.cfg.bufSize + rest.length) % s.cfg.bufSize =
      (s.rxOffset + (rest.length + 1)) % s.cfg.bufSize := by
    rw [Nat.mod_add_mod]
    congr 1
    omega
  have hflag : (s.cfg.bufSize ≤ s.rxOffset + 1 ∨ s.cfg.bufSize ≤ (s.rxOffset + 1) % s.cfg.bufSize + rest.length) ↔
      s.cfg.bufSize ≤ s.rxOffset + (rest.length + 1) := by
    by_cases hwrap : s.rxOffset + 1 = s.cfg.bufSize
    · omega
    · rw [Nat.mod_eq_of_lt (by omega)]
      omega
  simp [afterWrapping, afterBytes, hoffset, ← hflag, List.replicate_succ, Bool.or_assoc]

/-- One byte is received wherever the write offset stands in the buffer (R150, R152). -/
theorem exec_rxByte_wrapping {b : Byte} {s : State} (hf : s.fault = none) (he : s.rxEnable = true)
    (hlt : s.rxOffset < s.cfg.bufSize) :
    exec (.rxByte b) s = .next (afterWrapping (s.rx.write s.rxOffset b) [b] s) := by
  refine perform_eq_next.2 ⟨hf, rfl, ?_⟩
  rw [receiveByte_of_enabled he hlt]
  by_cases hwrap : s.rxOffset + 1 = s.cfg.bufSize
  · simp [afterWrapping, afterBytes, wrapsNow, hwrap]
  · have hnext : s.rxOffset + 1 < s.cfg.bufSize := by omega
    simp [afterWrapping, afterBytes, wrapsNow, hwrap, Nat.mod_eq_of_lt hnext, hnext]

/-- Any number of bytes is received, round and round the buffer (R105, R150, R152). -/
theorem performAll_rxBytes_wrapping : ∀ (bs : List Byte) {s : State}, s.fault = none → s.rxEnable = true →
    s.rxOffset < s.cfg.bufSize → ∃ m, performAll (bs.map .rxByte) s = .next (afterWrapping m bs s) := by
  intro bs
  induction bs with
  | nil =>
    intro s _ _ hlt
    refine ⟨s.rx, ?_⟩
    simp [performAll, afterWrapping, afterBytes, Nat.mod_eq_of_lt hlt, Nat.not_le.2 hlt]
  | cons b rest ih =>
    intro s hf he hlt
    obtain ⟨m, hrest⟩ := ih (s := afterWrapping (s.rx.write s.rxOffset b) [b] s) hf he
      (Nat.mod_lt _ (Nat.zero_lt_of_lt hlt))
    refine ⟨m, ?_⟩
    rw [List.map_cons, performAll_cons (exec_rxByte_wrapping hf he hlt), hrest, afterWrapping_cons b rest hlt]

/-- Settles O54: filling the buffer sets the overflow flag, and the frame then fails the test whatever its address. -/
theorem overflowCountedOnce : Obligations.OverflowCountedOnce := by
  intro s f hf hc he hoff hov hfull
  have hroom : 0 < s.cfg.bufSize := by
    have hsixteen := sixteen_le_maxPayload hc
    simp only [Config.maxPayload] at hsixteen
    omega
  have hsome : f ≠ [] := List.ne_nil_of_length_pos (by omega)
  obtain ⟨m, hbytes⟩ := performAll_rxBytes_wrapping f hf he (by omega)
  have hflag : (afterWrapping m f s).overflowFlag = true := by simp [afterWrapping, hoff, hfull]
  have hunread : LeadingField [] (afterWrapping m f s) := by simp [LeadingField, hflag]
  have hno : ¬ Acceptable [] (afterWrapping m f s) := by simp [hflag]
  have hend := endBurst_of_not_acceptable hunread hno
  refine ⟨_, performAll_burst hbytes hf (by simp [afterWrapping, afterBytes, hsome]) hend, ?_⟩
  simp [afterWrapping, afterBytes, hov, hoff, hsome, hfull]

end Sys2Proof.Machine

namespace Sys2Proof.Machine

/-! ## The Processing Engine (R171 to R178, R215) -/

/-! ### A frame command from its handler's result (R175, R178) -/

/-- A command whose handler does not answer resumes reception on the state the handler left (R178). -/
theorem exec_noAnswer {c : Config} {i : Instr} {s u : State} (hs : Dispatching s) (hi : ∀ ds, encode c i ≠ .event ds)
    (hu : handlerOf i s = (u, .noAnswer)) : exec i s = .next (resumed u) := by
  rw [exec_frameCommand_of_dispatching hs hi, hu, finishDispatch_noAnswer, toOutcome]

/-- A command whose handler answers what fits, with the transmitter free, replies under the address that the handler
left (R175, R178, R270). -/
theorem exec_reply {c : Config} {i : Instr} {s u : State} {r : List Byte} (hs : ReadyToReply s)
    (hi : ∀ ds, encode c i ≠ .event ds) (hu : handlerOf i s = (u, .reply r)) (hr : r.length ≤ s.cfg.maxPayload) :
    ∃ t, exec i s = .next t ∧ Replies u t (replyFrame s.cfg u.myAddress r) := by
  obtain ⟨hdispatching, hidle, hc⟩ := hs
  have heffect : HandlerEffect s u := by simpa only [hu] using handlerOf_effect i s
  have hcfg : u.cfg = s.cfg := heffect.cfg_eq
  obtain ⟨t, hfinish, hreplies⟩ := finishDispatch_reply (hcfg ▸ hc) (heffect.fault_eq.trans hdispatching.1)
    (hcfg ▸ hr) (heffect.txState_eq.trans hidle)
  refine ⟨t, ?_, hcfg ▸ hreplies⟩
  rw [exec_frameCommand_of_dispatching hdispatching hi, hu, hfinish, toOutcome]

/-- Settles O43: the application's answer is the handler's result. -/
theorem appRequestEffect : Obligations.AppRequestEffect := by
  intro s p hreg
  have hcommand : ∀ ds, encode s.cfg (.appRequest p) ≠ .event ds := by simp [encode]
  have hhandler : handlerOf (.appRequest p) s = (afterApplication s p, applicationAnswer s p) :=
    handleAppRequest_registered hreg p
  refine ⟨fun hs hanswer => ?_, fun r hs hanswer hr => ?_⟩
  · exact exec_noAnswer hs hcommand (hanswer ▸ hhandler)
  · exact exec_reply hs hcommand (hanswer ▸ hhandler) hr

/-! ### The dispatch of the latched frame (R175 to R177) -/

/-- The latched frame is its address field's value and the payload between the address field and the checksum
(R72, R177). -/
theorem latchedFrame_of_holds {s : State} {field p : List Byte} (hwidth : field.length = s.cfg.addrLen)
    (hlen : s.peLen = s.cfg.addrLen + p.length + s.cfg.csumLen) (hroom : s.peLen ≤ s.cfg.bufSize)
    (hholds : Holds s.rx 0 (field ++ p)) : latchedFrame s = .ok (addrOf field, p) := by
  obtain ⟨hfield, hpayload⟩ := holds_append.1 hholds
  rw [Nat.zero_add, hwidth] at hpayload
  have hreadField : memRead s .rx 0 s.cfg.addrLen = .ok field := memRead_of_holds hfield hwidth (by omega)
  have hreadPayload : memRead s .rx s.cfg.addrLen (s.peLen - s.cfg.addrLen - s.cfg.csumLen) = .ok p :=
    memRead_of_holds hpayload (by omega) (by omega)
  simp only [latchedFrame, hreadField, hreadPayload]

/-- The result handling returns the engine to idle, and leaves it where it was exactly when the start of the reply sets a
mark (R175, R272, R273). -/
theorem finishDispatch_pePhase {u t : State} {r : Result} (hf : u.fault = none)
    (hok : finishDispatch (u, r) = .ok t) :
    (t.fault = none ∧ t.pePhase = .idle) ∨ (t.fault ≠ none ∧ t.pePhase = u.pePhase) := by
  rcases finishDispatch_eq_ok hf hok with ⟨-, rfl⟩ | ⟨m, rfl, -⟩ | ⟨p, -, -, -, rfl⟩
  · exact .inl ⟨hf, rfl⟩
  · exact .inr ⟨Option.some_ne_none m, rfl⟩
  · exact .inl ⟨hf, rfl⟩

/-- Settles O32: the frame is read back from `RX`, and the handling of its dispatcher's result always ends. -/
theorem dispatchEffect : Obligations.DispatchEffect := by
  rintro s field p ⟨hf, hphase⟩ hc hwidth hlen hroom hholds
  have heffect := processFrame_effect (addrOf field) p s
  obtain ⟨t, hfinish⟩ := finishDispatch_total (heffect.cfg_eq ▸ hc) (processFrame (addrOf field) p s).2
  have hdispatch : dispatchFrame s = .ok t := by
    simpa only [dispatchFrame, latchedFrame_of_holds hwidth hlen hroom hholds] using hfinish
  refine ⟨t, perform_eq_next.2 ⟨hf, decide_eq_true hphase, hdispatch⟩, hfinish, ?_⟩
  rcases finishDispatch_pePhase (heffect.fault_eq.trans hf) hfinish with ⟨hnone, hidle⟩ | ⟨hmarked, hsame⟩
  · exact ⟨fun _ => hidle, fun hmarked => absurd hnone hmarked⟩
  · exact ⟨fun hnone => absurd hnone hmarked, fun _ => hsame.trans (heffect.pePhase_eq.trans hphase)⟩

/-! ### The steps before the dispatch (R171 to R173) -/

/-- An empty slot leaves the poll without effect (R171). -/
theorem pollFrame_of_not_pending {s : State} (h : s.pendingLen = 0) : pollFrame s = s := if_pos h

/-- Settles O29: by whether the slot holds a frame. -/
theorem pollEffect : Obligations.PollEffect := by
  intro s hf hphase
  rw [exec_pePoll hf hphase]
  exact ⟨fun hempty => by rw [pollFrame_of_not_pending hempty], fun hpending => by rw [pollFrame_of_pending hpending]⟩

/-- Settles O30: the suspension emits its event where it changes the receive enable (R37). -/
theorem suspendEffect : Obligations.SuspendEffect := by
  intro s hf hphase
  rw [exec_peSuspendRx hf hphase]
  cases he : s.rxEnable <;> simp [suspendReception, setRxEnable, he]

/-- A rejected frame is counted once, and reception resumes (R173, R301). -/
theorem rejectFrame_eq (s : State) : rejectFrame s = { s with
    cntMismatch := s.cntMismatch + 1
    rxEnable := true
    pePhase := .idle
    trace := s.trace ++ (if s.rxEnable = true then [] else [.rxEnable true]) } := by
  simp [rejectFrame, setRxEnable, raiseError]

/-- A latched frame with a wrong checksum is rejected (R173). -/
theorem exec_peVerify_of_not_csumOk {s : State} {f : List Byte} (hf : s.fault = none) (hphase : s.pePhase = .verify)
    (hlen : f.length = s.peLen) (hholds : Holds s.rx 0 f) (hroom : s.peLen ≤ s.cfg.bufSize)
    (hbad : csumOk s.cfg f = false) : exec .peVerify s = .next (rejectFrame s) := by
  refine perform_eq_next.2 ⟨hf, decide_eq_true hphase, ?_⟩
  have hread : memRead s .rx 0 s.peLen = .ok f := memRead_of_holds hholds hlen (by omega)
  simp [verifyFrame, hread, hbad]

/-- Settles O31: by the checksum of the frame read back from `RX`. -/
theorem verifyEffect : Obligations.VerifyEffect := by
  intro s f hf hphase hlen hroom hholds
  refine ⟨fun hok => ?_, fun hbad => ?_⟩
  · exact exec_peVerify_of_csumOk hf hphase hlen hholds hroom hok
  · rw [exec_peVerify_of_not_csumOk hf hphase hlen hholds hroom hbad, rejectFrame_eq]

end Sys2Proof.Machine

namespace Sys2Proof.Machine

/-! ## The base requests (R200 to R215) -/

/-! ### The requests that only answer (R200 to R209, R211, R212) -/

/-- The commands whose handler answers and leaves the state alone, those of `handlerOf_answers`. -/
def queryCommands : List Instr :=
  [.ping, .deviceInfo, .getName, .getUptime, .getVersion, .getCountCorrect, .getCountOverflow, .getCountLost,
    .getCountMismatch, .getCountAll, .getUuid, .getExtendedInfo, .bcUuidPing, .bcUuidGetAddress]

/-- A query replies with its handler's answer, which fits in every legal configuration (R216, R270). -/
theorem exec_query {i : Instr} {s : State} {r : List Byte} (hs : ReadyToReply s) (hi : i ∈ queryCommands)
    (hu : handlerOf i s = (s, .reply r)) :
    ∃ t, exec i s = .next t ∧ Replies s t (replyFrame s.cfg s.myAddress r) := by
  have hc : s.cfg.Valid := hs.2.2
  obtain ⟨hcommand, r', hu', hfits⟩ := handlerOf_answers hc i hi
  obtain rfl : r = r' := by simpa [hu] using hu'
  exact exec_reply hs hcommand hu hfits

/-- Settles O36: each row names a query and its handler's answer. -/
theorem identityReplies : Obligations.IdentityReplies := by
  intro s hs
  simp only [List.forall_mem_cons, List.not_mem_nil, false_imp_iff, implies_true, and_true]
  refine ⟨?ping, ?deviceInfo, ?getName, ?getVersion, ?getUuid, ?getExtendedInfo⟩
  all_goals exact exec_query hs (by simp [queryCommands]) rfl

/-- Settles O37: each row names a query and its handler's answer. -/
theorem counterReplies : Obligations.CounterReplies := by
  intro s hs
  simp only [List.forall_mem_cons, List.not_mem_nil, false_imp_iff, implies_true, and_true]
  refine ⟨?getUptime, ?getCountCorrect, ?getCountOverflow, ?getCountLost, ?getCountMismatch, ?getCountAll⟩
  all_goals exact exec_query hs (by simp [queryCommands]) rfl

/-! ### The counter reset (R210) -/

/-- Settles O38: the empty reply always fits. -/
theorem counterResetReply : Obligations.CounterResetReply := by
  intro s hs
  have hcommand : ∀ ds, encode s.cfg .resetCounts ≠ .event ds := by simp [encode]
  exact exec_reply hs hcommand rfl (Nat.zero_le _)

/-! ### The commands that answer nothing (R213 to R215, R245, R258) -/

/-- A rejected broadcast is not answered, and its error class has no effect (R305). -/
theorem malformed_eq (s : State) : malformed s = (s, .noAnswer) := by
  rw [malformed, raiseError_malformed]

/-- An application request with no handler registered is not answered (R215). -/
theorem handleAppRequest_unregistered {s : State} (hreg : s.cfg.appRequestRegistered = false) (p : List Byte) :
    handleAppRequest p s = (s, .noAnswer) := by
  simp [handleAppRequest, hreg, silent]

/-- Settles O42: the reserved base requests' handlers do nothing as they stand, the reserved broadcasts' because a
malformed broadcast has no effect, the application's where none is registered. -/
theorem silentCommands : Obligations.SilentCommands := by
  intro s hs
  refine ⟨fun code => ?_, fun rest => ?_, fun rest => ?_, fun p => ?_, fun hreg p => ?_⟩
  · exact exec_noAnswer (c := s.cfg) hs (by simp [encode]) rfl
  · exact exec_noAnswer (c := s.cfg) hs (by simp [encode]) rfl
  · exact exec_noAnswer (c := s.cfg) hs (by simp [encode]) (malformed_eq s)
  · exact exec_noAnswer (c := s.cfg) hs (by simp [encode]) (malformed_eq s)
  · exact exec_noAnswer (c := s.cfg) hs (by simp [encode]) (handleAppRequest_unregistered hreg p)

end Sys2Proof.Machine

/-! SUPPORT. The statements about broadcasts and address negotiation (44_broadcast_negotiation.md): the UUID-addressed
commands, the application and segment broadcasts, the bus assertion and the search over it, and a byte on a line of
several devices (60_exceptions.md R322). -/

namespace Sys2Proof

/-! ## The UUID-addressed broadcasts of another device (R245, R246) -/

/-- Every row of `[ALL_DEVICES, SUB_UUID] ++ rest` but the anonymous request begins with the device's own UUID
(R110). -/
theorem take_four_of_uuidRowMatches {c : Config} {rest : List Byte} (h : uuidRowMatches c rest) (hne : rest ≠ []) :
    rest.take 4 = uuidField c := by
  rcases h with hnil | rfl | rfl | rfl | ⟨-, hfive⟩
  · exact absurd hnil hne
  · exact List.take_of_length_le (by simp)
  · exact List.take_left' (uuidField_length c)
  · exact List.take_left' (uuidField_length c)
  · have hfour : (rest.take 5).take 4 = uuidField c := by rw [hfive, List.take_left' (uuidField_length c)]
    rwa [List.take_take] at hfour

/-- Settles O7: four bytes that are not the device's UUID begin no row of the table. -/
theorem foreignUuidIsReserved : Obligations.ForeignUuidIsReserved := by
  intro c hc u rest hlen hforeign
  have hne : u ++ rest ≠ [] := List.ne_nil_of_length_pos (by simp [hlen])
  have hnoRow : ¬ uuidRowMatches c (u ++ rest) := fun hrow =>
    hforeign ((List.take_left' hlen).symm.trans (take_four_of_uuidRowMatches hrow hne))
  exact (decodeBroadcast_uuid hc.allDevices_ne_protocolId (u ++ rest)).trans (uuidCommand_of_noRow hnoRow)

/-! ## The bus-assertion test in numbers (R252 to R254) -/

theorem maskLengthOk_iff {m : Byte} : maskLengthOk m = true ↔ 1 ≤ m.toNat ∧ m.toNat ≤ 32 := by
  simp [maskLengthOk]

/-- The mask of `m` bits keeps the remainder modulo `2 ^ m` (R254). -/
theorem toNat_and_assertMask (uuid : Word32) {m : Nat} (hm : m ≤ 32) :
    (uuid &&& assertMask m).toNat = uuid.toNat % 2 ^ m := by
  have hpow : 2 ^ m ≤ 2 ^ 32 := Nat.pow_le_pow_right (by decide) hm
  have hmask : (assertMask m).toNat = 2 ^ m - 1 := by
    rw [assertMask, BitVec.toNat_ofNat, Nat.mod_eq_of_lt (by omega)]
  rw [BitVec.toNat_and, hmask, Nat.and_two_pow_sub_one_eq_mod]

/-- Up to four bytes have a value of at most 32 bits, so the pattern loses none (R254). -/
theorem toNat_assertPattern (bytes : List Byte) : (assertPattern bytes).toNat = leVal (bytes.take 4) := by
  have hlt : leVal (bytes.take 4) < 2 ^ 32 :=
    calc leVal (bytes.take 4) < 256 ^ (bytes.take 4).length := leVal_lt _
      _ ≤ 256 ^ 4 := Nat.pow_le_pow_right (by decide) (List.length_take_le 4 bytes)
      _ = 2 ^ 32 := by norm_num
  rw [assertPattern, BitVec.toNat_ofNat, Nat.mod_eq_of_lt hlt]

/-- A device with this UUID asserts for the request: the mask length is legal and the UUID's low bits are the pattern
(R252 to R254). -/
abbrev AssertsFor (uuid : Word32) (m : Byte) (bytes : List Byte) : Prop :=
  1 ≤ m.toNat ∧ m.toNat ≤ 32 ∧ uuid.toNat % 2 ^ m.toNat = leVal (bytes.take 4)

theorem assertMatches_iff {uuid : Word32} {m : Byte} {bytes : List Byte} (hm : m.toNat ≤ 32) :
    assertMatches uuid m bytes = true ↔ uuid.toNat % 2 ^ m.toNat = leVal (bytes.take 4) := by
  rw [assertMatches, decide_eq_true_iff, ← BitVec.toNat_inj, toNat_and_assertMask uuid hm, toNat_assertPattern]

theorem assertsFor_iff {uuid : Word32} {m : Byte} {bytes : List Byte} :
    AssertsFor uuid m bytes ↔ maskLengthOk m = true ∧ assertMatches uuid m bytes = true := by
  rw [maskLengthOk_iff, AssertsFor, and_assoc]
  exact and_congr_right fun _ => and_congr_right fun hm => (assertMatches_iff hm).symm

/-- With the full mask and four pattern bytes the device asserts for exactly its own UUID's bytes (R257 (a)). -/
theorem assertsFor_fullMask_iff {uuid : Word32} {bytes : List Byte} (hlen : bytes.length = 4) :
    AssertsFor uuid 32 bytes ↔ bytes = le uuid.toNat 4 := by
  have hmod : uuid.toNat % 2 ^ 32 = uuid.toNat := Nat.mod_eq_of_lt uuid.isLt
  have hvalue : AssertsFor uuid 32 bytes ↔ uuid.toNat = leVal bytes := by
    rw [AssertsFor, List.take_of_length_le hlen.le, show (32 : Byte).toNat = 32 from rfl, hmod]
    simp
  rw [hvalue]
  constructor
  · intro heq
    rw [heq, ← hlen, le_leVal]
  · rintro rfl
    rw [leVal_le, show 256 ^ 4 = 2 ^ 32 by norm_num, hmod]

end Sys2Proof

namespace Sys2Proof.Machine

/-! ## The UUID commands that answer (R240 to R244) -/

/-- Settles O39: the anonymous request is answered by the address's being 0; the ping and the readback are queries. -/
theorem uuidReplies : Obligations.UuidReplies := by
  intro s
  have hcommand : ∀ ds, encode s.cfg .bcUuidRequest ≠ .event ds := by simp [encode]
  refine ⟨fun hs => ⟨fun hzero => ?request, ?ping, ?readback⟩, fun hs hassigned => ?assigned⟩
  case request =>
    have hanswer : handlerOf .bcUuidRequest s = (s, .reply (le s.cfg.uuid.toNat 4)) :=
      Prod.ext rfl (if_pos hzero)
    have hfits : (le s.cfg.uuid.toNat 4).length ≤ s.cfg.maxPayload := by
      rw [le_length]
      exact le_trans (by decide) (sixteen_le_maxPayload hs.2.2)
    simpa only [hzero] using exec_reply hs hcommand hanswer hfits
  case ping => exact exec_query hs (by simp [queryCommands]) rfl
  case readback => exact exec_query hs (by simp [queryCommands]) rfl
  case assigned =>
    have hsilent : handlerOf .bcUuidRequest s = (s, .noAnswer) := Prod.ext rfl (if_neg hassigned)
    exact exec_noAnswer hs hcommand hsilent

theorem newAddressOk_iff {c : Config} {a : Addr} :
    newAddressOk c a = true ↔ 0 < a.toNat ∧ a.toNat < c.masterAddr.toNat := by
  simp [newAddressOk, BitVec.lt_def]

/-- Settles O40: the handler assigns the address before it is the acknowledgement's, and only inside the interval. -/
theorem setAddressReply : Obligations.SetAddressReply := by
  intro s a hs
  have hcommand : ∀ ds, encode s.cfg (.bcUuidSetAddress a) ≠ .event ds := by simp [encode]
  have hone : 1 ≤ s.cfg.maxPayload := le_trans (by decide) (sixteen_le_maxPayload hs.2.2)
  refine ⟨fun hok => ?_, fun hbad => ?_⟩
  · have hassigned : handlerOf (.bcUuidSetAddress a) s = ({ s with myAddress := a }, .reply [0x01]) :=
      if_pos (newAddressOk_iff.2 hok)
    exact exec_reply hs hcommand hassigned hone
  · have hrefused : handlerOf (.bcUuidSetAddress a) s = (s, .reply [0x00]) :=
      if_neg (mt newAddressOk_iff.1 hbad)
    exact exec_reply hs hcommand hrefused hone

/-- Settles O41: the empty reply always fits. -/
theorem resetAddressReply : Obligations.ResetAddressReply := by
  intro s hs
  have hcommand : ∀ ds, encode s.cfg .bcUuidResetAddress ≠ .event ds := by simp [encode]
  exact exec_reply hs hcommand rfl (Nat.zero_le _)

/-! ## The broadcasts that are never answered (R231, R232, R247 to R249) -/

/-- Settles O46: the handlers emit the application's event and do not answer. -/
theorem applicationBroadcasts : Obligations.ApplicationBroadcasts := by
  intro s hs
  refine ⟨?legacy, fun rest => ?family⟩
  case legacy => exact exec_noAnswer (c := s.cfg) hs (by simp [encode]) rfl
  case family => exact exec_noAnswer (c := s.cfg) hs (by simp [encode]) rfl

/-- Settles O47: the handlers set their register, the segment's with its event, and do not answer. -/
theorem segmentAndResetAll : Obligations.SegmentAndResetAll := by
  intro s hs
  refine ⟨?enable, ?disable, ?resetAll⟩
  case enable => exact exec_noAnswer (c := s.cfg) hs (by simp [encode]) rfl
  case disable => exact exec_noAnswer (c := s.cfg) hs (by simp [encode]) rfl
  case resetAll => exact exec_noAnswer (c := s.cfg) hs (by simp [encode]) rfl

/-! ## The bus assertion at one device (R252 to R257) -/

/-- The bus-assertion request only emits the assertion, and is never answered (R252, R256). -/
theorem handleBcBusAssert_eq (m : Byte) (bytes : List Byte) (s : State) :
    handleBcBusAssert m bytes s =
      ({ s with trace := s.trace ++ (if AssertsFor s.uuid m bytes then [.busAssert] else []) }, .noAnswer) := by
  simp only [assertsFor_iff, handleBcBusAssert, malformed_eq]
  by_cases hmask : maskLengthOk m = true
  · by_cases hmatch : assertMatches s.uuid m bytes = true <;> simp [hmask, hmatch, emit]
  · simp [hmask]

/-- Settles O48: the handler's test, in numbers. -/
theorem busAssertEffect : Obligations.BusAssertEffect := by
  intro s m bytes hs
  exact exec_noAnswer (c := s.cfg) hs (by simp [encode]) (handleBcBusAssert_eq m bytes s)

/-- Settles O49: under the full mask the test holds for exactly the device's own UUID. -/
theorem fullMaskAssertsOwnUuid : Obligations.FullMaskAssertsOwnUuid := by
  intro s bytes hs hlen
  have hown : AssertsFor s.uuid 32 bytes ↔ bytes = le s.cfg.uuid.toNat 4 := assertsFor_fullMask_iff hlen
  have heffect := busAssertEffect s 32 bytes hs
  refine ⟨fun hsame => ?_, fun hother => ?_⟩
  · rw [heffect, if_pos (hown.2 hsame)]
  · rw [heffect, if_neg (mt hown.1 hother), List.append_nil]

/-! ## The bus assertion at all devices (R322 (c)) -/

/-- The events emitted by an operation that appended `evs` to the trace are `evs` (R14). -/
theorem emittedEvents_of_append {s t : State} {evs : List OutEvent} (h : t.trace = s.trace ++ evs) :
    emittedEvents s t = evs := by
  rw [emittedEvents, h, List.drop_left]

/-- A device's contribution to the wired-OR is its own match: the resumption of reception asserts nothing
(R252, R322 (c)). -/
theorem emittedAssert_busAssert_iff {m : Byte} {bytes : List Byte} {d d' : State} (hd : Dispatching d)
    (hn : exec (.bcBusAssert m bytes) d = .next d') : emittedAssert d d' = true ↔ AssertsFor d.uuid m bytes := by
  rw [busAssertEffect d m bytes hd, Host.Outcome.next.injEq] at hn
  subst hn
  have hresume : OutEvent.busAssert ∉ (if d.rxEnable = true then [] else [.rxEnable true] : List OutEvent) := by
    split <;> simp
  rw [emittedAssert, decide_eq_true_iff, emittedEvents_of_append (List.append_assoc _ _ _), List.mem_append,
    or_iff_left hresume]
  simp

/-- The wired-OR of single contributions, device by device. -/
theorem asserted_iff_exists {P : State → Prop} {before after : Devices}
    (h : List.Forall₂ (fun d d' => emittedAssert d d' = true ↔ P d) before after) :
    asserted before after = true ↔ ∃ d ∈ before, P d := by
  induction h with
  | nil => simp [asserted]
  | cons hhead _ ih =>
    rw [List.exists_mem_cons_iff, ← hhead, ← ih]
    simp [asserted]

/-- Settles O58: each device contributes its own match. -/
theorem wiredOrOfAssertions : Obligations.WiredOrOfAssertions := fun _ _ _ _ h =>
  asserted_iff_exists (h.imp fun _ _ ⟨hd, hn⟩ => emittedAssert_busAssert_iff hd hn)

/-! ## The search over bus assertions (R257 (c)) -/

theorem anyMatches_iff {m : Byte} {bytes : List Byte} {ds : Devices} :
    anyMatches m bytes ds = true ↔ ∃ d ∈ ds, AssertsFor d.uuid m bytes := by
  simp [anyMatches, assertsFor_iff]

/-- A value below `2 ^ 32` sent as the four pattern bytes is the pattern (R111 (e), R254). -/
theorem assertsFor_le_iff {uuid : Word32} {k v : Nat} (hk : k < 32) (hv : v < 2 ^ 32) :
    AssertsFor uuid (BitVec.ofNat 8 (k + 1)) (le v 4) ↔ uuid.toNat % 2 ^ (k + 1) = v := by
  have hmask : (BitVec.ofNat 8 (k + 1)).toNat = k + 1 := by
    rw [BitVec.toNat_ofNat]
    omega
  have hpattern : leVal ((le v 4).take 4) = v := by
    rw [List.take_of_length_le (by simp), leVal_le, show 256 ^ 4 = 2 ^ 32 by norm_num, Nat.mod_eq_of_lt hv]
  rw [AssertsFor, hmask, hpattern]
  exact ⟨fun ⟨_, _, hlow⟩ => hlow, fun hlow => ⟨Nat.succ_pos k, hk, hlow⟩⟩

theorem searchUuid_lt (ds : Devices) (k : Nat) : searchUuid ds k < 2 ^ k := by
  induction k with
  | zero => exact Nat.one_pos
  | succ k ih =>
    rw [searchUuid, pow_succ]
    split <;> omega

/-- One more bit of a remainder modulo a power of two is 0 or 1. -/
theorem mod_two_pow_succ_cases (x k : Nat) :
    x % 2 ^ (k + 1) = x % 2 ^ k ∨ x % 2 ^ (k + 1) = x % 2 ^ k + 2 ^ k := by
  rw [Nat.mod_pow_succ]
  rcases Nat.mod_two_eq_zero_or_one (x / 2 ^ k) with hbit | hbit <;> simp [hbit]

/-- After `k` bits the search holds the low bits of the UUID of some device (R257 (c)). -/
theorem exists_uuid_mod_eq_searchUuid {ds : Devices} (hds : ds ≠ []) {k : Nat} (hk : k ≤ 32) :
    ∃ d ∈ ds, d.uuid.toNat % 2 ^ k = searchUuid ds k := by
  induction k with
  | zero =>
    obtain ⟨d, hd⟩ := List.exists_mem_of_ne_nil ds hds
    exact ⟨d, hd, Nat.mod_one _⟩
  | succ k ih =>
    have hlt : searchUuid ds k < 2 ^ 32 :=
      lt_of_lt_of_le (searchUuid_lt ds k) (Nat.pow_le_pow_right (by decide) (by omega))
    have hrequest : anyMatches (BitVec.ofNat 8 (k + 1)) (le (searchUuid ds k) 4) ds = true ↔
        ∃ d ∈ ds, d.uuid.toNat % 2 ^ (k + 1) = searchUuid ds k := by
      simp only [anyMatches_iff, assertsFor_le_iff hk hlt]
    rw [searchUuid]
    split
    · rename_i hzero
      exact hrequest.1 hzero
    · rename_i hnone
      obtain ⟨d, hd, hlow⟩ := ih (by omega)
      have hbit := mod_two_pow_succ_cases d.uuid.toNat k
      rw [hlow] at hbit
      exact ⟨d, hd, hbit.resolve_left fun hzero => hnone (hrequest.2 ⟨d, hd, hzero⟩)⟩

/-- Settles O59: after 32 bits the low bits are the whole UUID. -/
theorem searchFindsUuid : Obligations.SearchFindsUuid := by
  intro ds hds
  obtain ⟨d, hd, hfound⟩ := exists_uuid_mod_eq_searchUuid hds le_rfl
  exact ⟨d, hd, by rwa [Nat.mod_eq_of_lt d.uuid.isLt] at hfound⟩

/-! ## A byte on the line (R322 (a), (b), (d)) -/

/-- Handing a byte over emits exactly it and moves only the transmitter's index and notifications (R274). -/
theorem exec_txReady_of_read {d d' : State} {b : Byte} (hn : exec .txReady d = .next d')
    (hb : d.tx.read d.txOffset = some b) : d' = advanceTx (emit (.txByte b) d) := by
  obtain ⟨-, -, hsend⟩ := perform_eq_next.1 hn
  obtain ⟨b', -, hread, rfl⟩ := sendByte_eq_ok hsend
  obtain rfl : b' = b := by simpa [hread] using hb
  rfl

/-- Which segments are open is all that decides the stretches of a line (R322 (d)). -/
theorem connected_congr {ds ds' : Devices}
    (h : ds'.map State.segmentEnable = ds.map State.segmentEnable) (i j : Nat) :
    connected ds' i j = connected ds i j := by
  have hopen : ∀ (l : Devices) (a b : Nat),
      segmentsOpen l a b = (((l.map State.segmentEnable).take b).drop a).all id := by
    intro l a b
    rw [segmentsOpen, ← List.map_take, ← List.map_drop, List.all_map]
    rfl
  simp only [connected, hopen, h]

/-- A device's own operation that leaves its segment alone leaves the stretches alone (R322 (d)). -/
theorem connected_set {ds : Devices} {k : Nat} {d d' : State} (hd : ds[k]? = some d)
    (hsegment : d'.segmentEnable = d.segmentEnable) (i j : Nat) : connected (ds.set k d') i j = connected ds i j := by
  refine connected_congr ?_ i j
  obtain ⟨hk, rfl⟩ := List.getElem?_eq_some_iff.1 hd
  rw [List.map_set, hsegment, ← List.map_set, List.set_getElem_self]

/-- A device that hands a byte over puts it on the line; its own state is that of its operation (R274, R322 (a)). -/
theorem deviceOperates_txReady {heard : Nat → List Byte} {ds : Devices} {k : Nat} {d d' : State} {b : Byte}
    (hd : ds[k]? = some d) (hn : exec .txReady d = .next d') (hb : d.tx.read d.txOffset = some b) :
    deviceOperates heard k .txReady ds = putByte heard (.device k) b (ds.set k d') := by
  have hbytes : emittedBytes d d' = [b] := by
    rw [exec_txReady_of_read hn hb, emittedBytes, emittedEvents_of_append (evs := [.txByte b]) rfl]
    rfl
  simp [deviceOperates, hd, hn, fromLine, hbytes]

/-- A byte is heard as it is by a device that it reaches on a quiet stretch (R322 (a)). -/
theorem getElem?_putByte_quiet {heard : Nat → List Byte} {talker : Talker} {b : Byte} {ds : Devices} {j : Nat}
    {e : State} (he : ds[j]? = some e) (hreach : reaches ds talker j = true) (hquiet : contended ds talker j = false) :
    (putByte heard talker b ds)[j]? = some (hearByte b e) := by
  simp [getElem?_putByte, he, hreach, hquiet]

/-- A byte is garbled for a device that it reaches on a stretch where another device drives the line (R322 (b)). -/
theorem getElem?_putByte_collision {heard : Nat → List Byte} {talker : Talker} {b : Byte} {ds : Devices} {j : Nat}
    {e : State} (he : ds[j]? = some e) (hreach : reaches ds talker j = true) (hclash : contended ds talker j = true) :
    (putByte heard talker b ds)[j]? = some (hearBytes (heard j) e) := by
  simp [getElem?_putByte, he, hreach, hclash]

/-- A byte that does not reach a device leaves it alone (R322 (d)). -/
theorem getElem?_putByte_unreached {heard : Nat → List Byte} {talker : Talker} {b : Byte} {ds : Devices} {j : Nat}
    {e : State} (he : ds[j]? = some e) (hreach : reaches ds talker j = false) :
    (putByte heard talker b ds)[j]? = some e := by
  simp [getElem?_putByte, he, hreach]

/-- The stretch is quiet for a talker when no other device on it drives the line (R322 (b)). -/
theorem contended_eq_false {ds : Devices} {talker : Talker} {j : Nat}
    (h : ∀ i d, talker ≠ .device i → ds[i]? = some d → connected ds i j = true → d.lineDrive = false) :
    contended ds talker j = false := by
  rw [← Bool.not_eq_true, contended_iff]
  rintro ⟨i, d, htalker, hd, hdrives, hconnected⟩
  simp [h i d htalker hd hconnected] at hdrives

/-- The master's byte is not heard behind a disabled segment (R248, R322 (d)). -/
theorem masterSends_hidden {heard : Nat → List Byte} {ds : Devices} {i j : Nat} {b : Byte} {d e : State}
    (he : ds[j]? = some e) (hij : i < j) (hd : ds[i]? = some d) (hsegment : d.segmentEnable = false) :
    (masterSends heard b ds)[j]? = some e := by
  refine getElem?_putByte_unreached he (Bool.eq_false_iff.2 fun hreach => ?_)
  have hopen := segmentsOpen_iff.1 hreach i d (Nat.zero_le i) hij hd
  simp [hsegment] at hopen

/-- What a device's own byte does at each device, by whether it is the sender, off its stretch or on it
(R274, R322 (a), (b), (d)). -/
theorem deviceByte_heard {heard : Nat → List Byte} {ds : Devices} {j k : Nat} {b : Byte} {d d' e : State}
    (he : ds[j]? = some e) (hd : ds[k]? = some d) (hn : exec .txReady d = .next d')
    (hb : d.tx.read d.txOffset = some b) :
    (j = k → (deviceOperates heard k .txReady ds)[j]? = some d') ∧
    (j ≠ k → connected ds k j = false → (deviceOperates heard k .txReady ds)[j]? = some e) ∧
    (j ≠ k → connected ds k j = true →
      (∀ (i : Nat) (x : State), i ≠ k → ds[i]? = some x → connected ds i j = true → x.lineDrive = false) →
      (deviceOperates heard k .txReady ds)[j]? = some (hearByte b e)) := by
  have hsegment : d'.segmentEnable = d.segmentEnable := by rw [exec_txReady_of_read hn hb]; rfl
  have hconn : ∀ i, connected (ds.set k d') i j = connected ds i j := fun i => connected_set hd hsegment i j
  have hother : ∀ {i}, i ≠ k → (ds.set k d')[i]? = ds[i]? := fun hi => List.getElem?_set_ne (Ne.symm hi)
  rw [deviceOperates_txReady hd hn hb]
  refine ⟨?sender, fun hjk hcut => ?hidden, fun hjk hopen hquiet => ?heard⟩
  case sender =>
    rintro rfl
    have hself : (ds.set j d')[j]? = some d' := List.getElem?_set_self (List.getElem?_eq_some_iff.1 hd).1
    exact getElem?_putByte_unreached hself (by simp [reaches])
  case hidden => exact getElem?_putByte_unreached ((hother hjk).trans he) (by simp [reaches, hconn, hcut])
  case heard =>
    refine getElem?_putByte_quiet ((hother hjk).trans he) (by simp [reaches, hconn, hopen, hjk])
      (contended_eq_false fun i x hi hx hix => ?_)
    have hik : i ≠ k := fun h => hi (h ▸ rfl)
    exact hquiet i x hik (hother hik ▸ hx) (hconn i ▸ hix)

/-- Settles O60: the master's byte by the segments before the device and the drivers on its stretch, then a device's
own. -/
theorem disabledSegmentHidesDevices : Obligations.DisabledSegmentHidesDevices := by
  intro heard ds j e he
  refine ⟨fun b i d hij hd hoff => ?hidden, fun b hopen => ?stretch, fun k d d' b hd hn hb => ?device⟩
  case hidden => exact masterSends_hidden he hij hd hoff
  case stretch =>
    have hreach : reaches ds .master j = true := segmentsOpen_iff.2 fun i d _ hij hd => hopen i d hij hd
    refine ⟨fun hquiet => ?_, fun i d hd hconnected hdrives => ?_⟩
    · exact getElem?_putByte_quiet he hreach (contended_eq_false fun i d _ => hquiet i d)
    · exact getElem?_putByte_collision he hreach (contended_iff.2 ⟨i, d, by simp, hd, hdrives, hconnected⟩)
  case device => exact deviceByte_heard he hd hn hb

end Sys2Proof.Machine

/-! SUPPORT. The statements about the transmit-line turnaround sequencer (45_transmitter.md): the two notifications, the
reply they hand over, and the mark that the discipline excludes. -/

namespace Sys2Proof.Machine

/-! ## The two notifications (R274, R275) -/

/-- Under its enabling condition a send-ready event hands over the byte at the index (R274). -/
theorem exec_txReady {s : State} {b : Byte} (hf : s.fault = none) (hready : s.txReadyEn = true)
    (hlt : s.txOffset < s.cfg.bufSize) (hread : s.tx.read s.txOffset = some b) :
    exec .txReady s = .next (advanceTx (emit (.txByte b) s)) := by
  have hbyte : readByte s .tx s.txOffset = .ok b := readByte_eq_ok.2 ⟨hlt, hread⟩
  exact perform_eq_next.2 ⟨hf, hready, by rw [sendByte, hbyte]⟩

/-- Settles O33: the byte at the index is emitted; whether it is the frame's last decides the notifications. -/
theorem sendReadyEffect : Obligations.SendReadyEffect := by
  intro s b hf hready hlt hread
  rw [exec_txReady hf hready hlt hread]
  exact ⟨fun hmore => by simp [advanceTx, lastByte, emit, hmore, hready],
    fun hlast => by simp [advanceTx, lastByte, emit, hlast]⟩

theorem exec_txComplete {s : State} (hf : s.fault = none) (hcomplete : s.txCompleteEn = true) :
    exec .txComplete s = .next (releaseLine s) :=
  (perform_eq_next (f := fun s => .ok (releaseLine s))).2 ⟨hf, hcomplete, rfl⟩

/-- Settles O34: the release is emitted, then the resumption where it changes the receive enable (R37). -/
theorem sendCompleteEffect : Obligations.SendCompleteEffect := by
  intro s hf hcomplete
  exact ⟨releaseLine s, exec_txComplete hf hcomplete, rfl, fun hready => txState_eq_idle.2 ⟨hready, rfl⟩⟩

/-! ## One reply (R274, R275, R277) -/

/-- The state after the bytes `bs` of a reply, none of them its last, were handed over (R274). -/
def afterSent (bs : List Byte) (s : State) : State :=
  { s with txOffset := s.txOffset + bs.length, trace := s.trace ++ bs.map .txByte }

theorem afterSent_cons (b : Byte) (rest : List Byte) (s : State) :
    afterSent rest (afterSent [b] s) = afterSent (b :: rest) s := by
  have hoffset : s.txOffset + 1 + rest.length = s.txOffset + (rest.length + 1) := by omega
  simp [afterSent, hoffset]

/-- As many send-ready events as there are bytes before the reply's last hand over those bytes in index order
(R274, R277). -/
theorem performAll_txReady : ∀ (bs : List Byte) {s : State}, s.fault = none → s.txReadyEn = true →
    s.txOffset + bs.length < s.txLen → s.txLen ≤ s.cfg.bufSize → Holds s.tx s.txOffset bs →
    performAll (List.replicate bs.length .txReady) s = .next (afterSent bs s) := by
  intro bs
  induction bs with
  | nil =>
    intro s _ _ _ _ _
    simp [performAll, afterSent]
  | cons b rest ih =>
    intro s hf hready hmore hfits hholds
    rw [List.length_cons] at hmore
    obtain ⟨hfirst, hrest⟩ := holds_append (front := [b]) (back := rest).1 hholds
    have hread : s.tx.read s.txOffset = some b := hfirst 0 Nat.zero_lt_one
    have hbyte : exec .txReady s = .next (afterSent [b] s) :=
      (sendReadyEffect s b hf hready (by omega) hread).1 (by omega)
    have hnext : (afterSent [b] s).txOffset + rest.length < s.txLen := by
      simp only [afterSent, List.length_singleton]
      omega
    rw [List.length_cons, List.replicate_succ, performAll_cons hbyte,
      ih (s := afterSent [b] s) hf hready hnext hfits hrest, afterSent_cons]

theorem performAll_singleton {i : Instr} {s t : State} (h : exec i s = .next t) : performAll [i] s = .next t :=
  performAll_cons h []

/-- The reply's last byte and the completion: the byte is handed over, the line released, reception resumed
(R274, R275). -/
theorem performAll_lastByte {s : State} {b : Byte} (hf : s.fault = none) (hready : s.txReadyEn = true)
    (hlt : s.txOffset < s.cfg.bufSize) (hread : s.tx.read s.txOffset = some b) (hlast : s.txOffset + 1 = s.txLen) :
    performAll [.txReady, .txComplete] s = .next
      { s with
        txOffset := s.txOffset + 1
        txReadyEn := false
        txCompleteEn := false
        lineDrive := false
        rxEnable := true
        trace := s.trace ++ [.txByte b] ++ [.lineDrive false] ++
          (if s.rxEnable = true then [] else [.rxEnable true]) } := by
  rw [performAll_cons ((sendReadyEffect s b hf hready hlt hread).2 hlast)]
  exact performAll_singleton (exec_txComplete hf rfl)

/-- Settles O56: the bytes before the last leave one by one; the last one and the completion end the reply. -/
theorem replyTransmitted : Obligations.ReplyTransmitted := by
  intro s f hf hsending hstart hlen hsome hfits hholds
  obtain ⟨front, last, rfl⟩ := (List.eq_nil_or_concat' f).resolve_left (List.ne_nil_of_length_pos hsome)
  rw [List.length_append, List.length_singleton] at hlen hfits
  obtain ⟨hready, -⟩ := txState_eq_sending.1 hsending
  obtain ⟨hfront, hback⟩ := holds_append.1 hholds
  have hoffset : (afterSent front s).txOffset = front.length := by simp [afterSent, hstart]
  have hread : s.tx.read (afterSent front s).txOffset = some last := by
    simpa [hoffset] using hback 0 Nat.zero_lt_one
  have hbytes : performAll (List.replicate front.length .txReady) s = .next (afterSent front s) :=
    performAll_txReady front hf hready (by omega) (by omega) (hstart ▸ hfront)
  have hend := performAll_lastByte (s := afterSent front s) hf hready (hoffset ▸ hfits) hread
    (by rw [hoffset]; exact hlen.symm)
  rw [List.length_append, List.length_singleton, List.replicate_succ', List.append_assoc, performAll_append hbytes,
    List.singleton_append, hend, hoffset]
  cases he : s.rxEnable <;> simp [afterSent, he]

/-! ## The mark of a second reply (R273, R366) -/

@[simp] theorem pollFrame_fault (s : State) : (pollFrame s).fault = s.fault := by
  unfold pollFrame
  split <;> rfl

/-- Only `RESET` and the dispatch of a frame write the fault mark, and the dispatch marks an overlap only while a reply
is leaving (R51, R273). -/
theorem exec_fault_cases {i : Instr} {s t : State} (hn : exec i s = .next t) :
    t.fault = none ∨ t.fault = s.fault ∨
      (s.pePhase = .dispatch ∧ (t.fault = some .txOverlap → s.txState ≠ .idle)) := by
  rcases exec_cases hn with ⟨-, rfl⟩ | ⟨b, -, hrx⟩ | ⟨-, hend⟩ | ⟨-, -, rfl⟩ | ⟨-, -, rfl⟩ | ⟨-, -, hver⟩ |
    ⟨-, -, hsend⟩ | ⟨-, -, rfl⟩ | ⟨-, rfl⟩ | ⟨-, hf, hphase, u, r, he, hfin, -⟩
  · exact .inl rfl
  · rcases receiveByte_eq_ok hrx with ⟨-, rfl⟩ | ⟨-, -, rfl⟩ <;> exact .inr (.inl rfl)
  · obtain ⟨_, -, rfl⟩ := endBurst_eq_ok hend
    exact .inr (.inl rfl)
  · exact .inr (.inl (pollFrame_fault s))
  · exact .inr (.inl rfl)
  · obtain ⟨f, -, ⟨-, rfl⟩ | ⟨-, rfl⟩⟩ := verifyFrame_eq_ok hver <;> exact .inr (.inl rfl)
  · obtain ⟨b, -, -, rfl⟩ := sendByte_eq_ok hsend
    exact .inr (.inl rfl)
  · exact .inr (.inl rfl)
  · exact .inr (.inl rfl)
  · have hfu : u.fault = none := he.fault_eq.trans hf
    rcases finishDispatch_eq_ok hfu hfin with ⟨-, rfl⟩ | ⟨m, rfl, hoverlap⟩ | ⟨p, -, -, -, rfl⟩
    · exact .inl hfu
    · exact .inr (.inr ⟨hphase, fun hmark => he.txState_eq ▸ hoverlap (Option.some.inj hmark)⟩)
    · exact .inl hfu

/-- Under the discipline an instruction does not set the overlap mark: a dispatch finds the transmitter idle (R366). -/
theorem exec_fault_ne_txOverlap {i : Instr} {s t : State} (hd : Disciplined s) (hf : s.fault ≠ some .txOverlap)
    (hn : exec i s = .next t) : t.fault ≠ some .txOverlap := by
  rcases exec_fault_cases hn with hnone | hsame | ⟨hphase, hoverlap⟩
  · simp [hnone]
  · rwa [hsame]
  · exact fun hmark => hoverlap hmark (hd.engine_alone (by simp [hphase]))

/-- Settles O20: the operation a step reads does not set the mark, and a step that reads none changes nothing. -/
theorem disciplineExcludesOverlap : Obligations.DisciplineExcludesOverlap := by
  intro s t hd hf hstep
  rcases step_cases s with ⟨-, hwait⟩ | ⟨e, -, -, hrefuse⟩ | ⟨i, rest, -, -, hrun⟩
  · cases hwait.symm.trans hstep
    exact hf
  · cases hrefuse.symm.trans hstep
  · exact exec_fault_ne_txOverlap (s := { s with stimulus := rest }) { hd with } hf (hrun.symm.trans hstep)

end Sys2Proof.Machine

/-! SUPPORT. The statements about the diagnostics (46_diagnostics.md): what one tick writes, slot by slot, and any number
of ticks while the heartbeat is suppressed. -/

namespace Sys2Proof.Machine

/-! ## One tick (R290) -/

theorem exec_tick {s : State} (hf : s.fault = none) : exec .tick s = .next (tickOnce s) :=
  (perform_eq_next (f := fun s => .ok (tickOnce s))).2 ⟨hf, rfl, rfl⟩

theorem heartbeatSlot_iff {s : State} : heartbeatSlot s = true ↔ s.cfg.heartbeatDiv ≤ s.hbDiv + 1 :=
  decide_eq_true_iff

/-- A tick that does not toggle writes the uptime and the divider only. -/
theorem tickOnce_of_not_toggles {s : State} (h : heartbeatToggles s = false) :
    tickOnce s = { s with uptime := s.uptime + 1, hbDiv := if heartbeatSlot s then 0 else s.hbDiv + 1 } := by
  simp [tickOnce, h]

/-- A tick that toggles falls in a slot, so it also restarts the divider. -/
theorem tickOnce_of_toggles {s : State} (h : heartbeatToggles s = true) :
    tickOnce s = { s with
      uptime := s.uptime + 1
      hbDiv := 0
      heartbeat := !s.heartbeat
      trace := s.trace ++ [.heartbeatToggle] } := by
  have hslot : heartbeatSlot s = true := (Bool.and_eq_true_iff.1 h).1
  simp [tickOnce, h, hslot]

theorem heartbeatToggles_of_suppressed {s : State} (h : s.heartbeatSuppress = true) : heartbeatToggles s = false := by
  simp [heartbeatToggles, h]

/-- Settles O35: a tick toggles exactly in an unsuppressed slot, and either way it is the effect just said. -/
theorem tickEffect : Obligations.TickEffect := by
  intro s hf
  rw [exec_tick hf]
  refine ⟨fun hbetween => ?_, fun hdue hsuppress => ?_, fun hdue hfree => ?_⟩
  · have hslot : heartbeatSlot s = false := Bool.eq_false_iff.2 fun h => absurd (heartbeatSlot_iff.1 h) (by omega)
    rw [tickOnce_of_not_toggles (by simp [heartbeatToggles, hslot])]
    simp [hslot]
  · rw [tickOnce_of_not_toggles (heartbeatToggles_of_suppressed hsuppress)]
    simp [heartbeatSlot_iff.2 hdue]
  · rw [tickOnce_of_toggles (by simp [heartbeatToggles, heartbeatSlot_iff.2 hdue, hfree])]

/-! ## Ticks under suppression (R290 to R292) -/

/-- Settles O57, by induction on the number of ticks: each keeps the suppression and the mark, so the next one is
suppressed as well. -/
theorem suppressedHeartbeatFrozen : Obligations.SuppressedHeartbeatFrozen := by
  intro s k
  induction k generalizing s with
  | zero => exact fun _ _ => ⟨s, rfl, by simp⟩
  | succ k ih =>
    intro hf hsuppress
    obtain ⟨t, hrun, ht⟩ := ih (tickOnce s) hf hsuppress
    refine ⟨t, by rw [List.replicate_succ, performAll_cons (exec_tick hf), hrun], ht.trans ?_⟩
    have huptime : s.uptime + 1 + BitVec.ofNat 32 k = s.uptime + BitVec.ofNat 32 (k + 1) := by bv_omega
    rw [tickOnce_of_not_toggles (heartbeatToggles_of_suppressed hsuppress), ← huptime]

end Sys2Proof.Machine

/-! SUPPORT. The statements about the two contexts (60_exceptions.md) and about reset (70_reset_and_hazards.md): what the
cooperative context leaves alone, and the configuration that has no run. -/

namespace Sys2Proof.Machine

/-! ## What the cooperative context leaves alone (R316) -/

/-- The registers that the cooperative context does not write at all: the receive buffer with its offset, its flags and
the idle timer, the ticks, and the transmission-complete notification (R316). -/
def preemptiveRegisters (s : State) : Memory × Nat × Bool × Bool × Bool × Word32 × Nat × Bool × Bool :=
  (s.rx, s.rxOffset, s.overflowFlag, s.lostFlag, s.timerArmed, s.uptime, s.hbDiv, s.heartbeat, s.txCompleteEn)

/-- What the cooperative context may do to the registers of the preemptive context: clear the slot, the heartbeat
suppression and the two counters, and nothing else (R316). -/
structure CooperativeEffect (s t : State) : Prop where
  registers : preemptiveRegisters t = preemptiveRegisters s
  slot : t.pendingLen = s.pendingLen ∨ t.pendingLen = 0
  suppression : t.heartbeatSuppress = s.heartbeatSuppress ∨ t.heartbeatSuppress = false
  overflow : t.cntOverflow = s.cntOverflow ∨ t.cntOverflow = 0
  lost : t.cntLost = s.cntLost ∨ t.cntLost = 0

/-- Two cooperative effects in a row are one: what the first cleared stays clear. -/
theorem CooperativeEffect.trans {s u t : State} (h : CooperativeEffect s u) (k : CooperativeEffect u t) :
    CooperativeEffect s t where
  registers := k.registers.trans h.registers
  slot := k.slot.elim (fun hkept => hkept ▸ h.slot) .inr
  suppression := k.suppression.elim (fun hkept => hkept ▸ h.suppression) .inr
  overflow := k.overflow.elim (fun hkept => hkept ▸ h.overflow) .inr
  lost := k.lost.elim (fun hkept => hkept ▸ h.lost) .inr

/-- Taking over a pending frame clears the slot and the suppression (R171). -/
theorem pollFrame_cooperative (s : State) : CooperativeEffect s (pollFrame s) := by
  by_cases hslot : s.pendingLen = 0
  · rw [pollFrame_of_not_pending hslot]
    exact ⟨rfl, .inl rfl, .inl rfl, .inl rfl, .inl rfl⟩
  · rw [pollFrame_of_pending hslot]
    exact ⟨rfl, .inr rfl, .inr rfl, .inl rfl, .inl rfl⟩

/-- Suspending reception touches nothing of the preemptive context but the receive enable, which both write (R172). -/
theorem suspendReception_cooperative (s : State) : CooperativeEffect s (suspendReception s) :=
  ⟨rfl, .inl rfl, .inl rfl, .inl rfl, .inl rfl⟩

/-- Verification counts a correct frame or a mismatch, never an overflow or a loss (R173, R301). -/
theorem verifyFrame_cooperative {s t : State} (h : verifyFrame s = .ok t) : CooperativeEffect s t := by
  obtain ⟨f, -, ⟨-, rfl⟩ | ⟨-, rfl⟩⟩ := verifyFrame_eq_ok h
  · exact ⟨rfl, .inl rfl, .inl rfl, .inl rfl, .inl rfl⟩
  · exact ⟨rfl, .inl rfl, .inl rfl, .inl (by simp [rejectFrame]), .inl (by simp [rejectFrame])⟩

/-- Of the preemptive context's registers a handler writes at most the counters, to clear them (R210). -/
theorem HandlerEffect.cooperative {s u : State} (h : HandlerEffect s u) : CooperativeEffect s u where
  registers := (congrArg preemptiveRegisters h.frame :)
  slot := .inl (congrArg State.pendingLen h.frame :)
  suppression := .inl (congrArg State.heartbeatSuppress h.frame :)
  overflow := h.overflow
  lost := h.lost

/-- The result handling resumes reception, marks the device or starts a reply: none of these writes a register of the
preemptive context that it owns alone (R175, R178, R270). -/
theorem finishDispatch_cooperative {u t : State} {r : Result} (hf : u.fault = none)
    (h : finishDispatch (u, r) = .ok t) : CooperativeEffect u t := by
  rcases finishDispatch_eq_ok hf h with ⟨-, rfl⟩ | ⟨m, rfl, -⟩ | ⟨p, -, -, -, rfl⟩ <;>
    exact ⟨rfl, .inl rfl, .inl rfl, .inl rfl, .inl rfl⟩

/-- Every operation outside the preemptive context but `RESET` has a cooperative effect: the engine's steps one by one,
and a dispatch as its handler followed by the result handling. -/
theorem exec_cooperative {i : Instr} {s t : State} (hp : ¬ Preemptive i) (hi : i ≠ .reset) (hn : exec i s = .next t) :
    CooperativeEffect s t := by
  rcases exec_cases hn with ⟨hreset, -⟩ | ⟨b, hb, -⟩ | ⟨htimeout, -⟩ | ⟨-, -, rfl⟩ | ⟨-, -, rfl⟩ | ⟨-, -, hver⟩ |
    ⟨hready, -⟩ | ⟨hcomplete, -⟩ | ⟨htick, -⟩ | ⟨-, hf, -, u, r, he, hfin, -⟩
  · exact absurd hreset hi
  · exact absurd (.inl ⟨b, hb⟩) hp
  · exact absurd (.inr (.inl htimeout)) hp
  · exact pollFrame_cooperative s
  · exact suspendReception_cooperative s
  · exact verifyFrame_cooperative hver
  · exact absurd (.inr (.inr (.inl hready))) hp
  · exact absurd (.inr (.inr (.inr (.inl hcomplete)))) hp
  · exact absurd (.inr (.inr (.inr (.inr htick)))) hp
  · exact he.cooperative.trans (finishDispatch_cooperative (he.fault_eq.trans hf) hfin)

/-- Settles O24: the operation's cooperative effect, read register by register. -/
theorem cooperativeFrame : Obligations.CooperativeFrame := by
  intro i s t hp hi hn
  obtain ⟨hregisters, hslot, hsuppress, hoverflow, hlost⟩ := exec_cooperative hp hi hn
  simp only [preemptiveRegisters, Prod.mk.injEq] at hregisters
  obtain ⟨hrx, hoffset, hovf, hloss, htimer, huptime, hdiv, hbeat, hcomplete⟩ := hregisters
  exact ⟨hrx, hoffset, hovf, hloss, htimer, huptime, hdiv, hbeat, hcomplete, hslot, hsuppress, hoverflow, hlost⟩

/-! ## The configuration that has no run (R352) -/

/-- Settles O15: `RESET` looks at the configuration's constraints before anything else. -/
theorem badConfigurationRefused : Obligations.BadConfigurationRefused := fun _ hc => if_neg hc

end Sys2Proof.Machine
